-- ==== Sys2Proof/Word.lean ====
section
/-! DEFINITION. The word types of the block: the command word and the widths of its operands and lines. -/

namespace Sys2Proof

/-- A command word as the host presents it on the command port (R80). -/
abbrev Word := BitVec 32

/-- The data lines and every byte-wide register (R7, `DW`). -/
abbrev Byte := BitVec 8

/-- The address lines: the 32 locations of the synthesizer register space (R7, `AW`; R62). -/
abbrev Addr := BitVec 5

/-- A frequency or a pulse width (R22). -/
abbrev Half := BitVec 16

/-- One value of an envelope (R33, R34). -/
abbrev Nibble := BitVec 4

/-- The voice field `V` of a command word: 0, 1 and 2 select a voice, 3 is out of range (R82). -/
abbrev VoiceField := BitVec 2

end Sys2Proof
end

