-- ==== Sys2Proof/Syntax.lean ====
section
/-! DEFINITION. The commands of the block: one constructor per row of spec/opcode_table.json, in the table's order.
Every operand has exactly the width of its field (R81, R83), so a term of `Instr` is a command some word spells (log 6). -/

namespace Sys2Proof

inductive Instr
  /-- BUSADDR a (R100): drive the address lines. -/
  | busaddr (a : Addr)
  /-- BUSDATA d (R101): drive the data lines. -/
  | busdata (d : Byte)
  /-- BUSCOMMIT (R102): one bus write cycle. -/
  | buscommit
  /-- RESETCHIP (R110): the chip reset pulse. -/
  | resetchip
  /-- STARTCLK (R112): start the clock line, then reset the chip. -/
  | startclk
  /-- SETFREQ v, f (R120): store a voice's frequency. -/
  | setfreq (v : VoiceField) (f : Half)
  /-- UPDFREQ v (R122): push a voice's frequency. -/
  | updfreq (v : VoiceField)
  /-- SETPW v, w (R124): store and push a voice's pulse width. -/
  | setpw (v : VoiceField) (w : Half)
  /-- SETENV v, atk, dec, sus, rel (R126): pack and store a voice's envelope. -/
  | setenv (v : VoiceField) (atk dec sus rel : Nibble)
  /-- UPDENV v (R128): push a voice's AD and SR bytes. -/
  | updenv (v : VoiceField)
  /-- SETSHAPE v, m (R140): replace and push the waveform bits. -/
  | setshape (v : VoiceField) (m : Byte)
  /-- VOICEON v (R142): set the gate bit. -/
  | voiceon (v : VoiceField)
  /-- VOICEOFF v (R144): clear the gate bit. -/
  | voiceoff (v : VoiceField)
  /-- SETSYNC v, en (R146): write the sync bit. -/
  | setsync (v : VoiceField) (en : Bool)
  /-- SETRING v, en (R148): write the ring bit. -/
  | setring (v : VoiceField) (en : Bool)
  /-- SETVOL x (R160): replace and push the master volume. -/
  | setvol (x : Byte)
  deriving DecidableEq, Repr

end Sys2Proof
end

