-- ==== Sys2Proof/WellFormed.lean ====
section
/-! DEFINITION. Which command words are well formed: a check of the word alone, written from the formats of R81 and the
must-be-zero bits of R85, apart from the decoder's mask and match values. A term of `Instr` needs no check of its own:
its operands have the widths of their fields (log 6). -/

namespace Sys2Proof

/-- The must-be-zero bits of the format that opcode `op` uses (R81, R85). Opcode 0 has no format. -/
def mustBeZero (op : BitVec 4) : Word :=
  match op.toNat with
  | 0x1 => 0x0FFFFFE0#32                              -- F-A: all but ADDR[4:0]
  | 0x2 | 0xF => 0x0FFFFF00#32                        -- F-B: all but IMM8[7:0]
  | 0x3 | 0x4 | 0x5 => 0x0FFFFFFF#32                  -- F-N: all
  | 0x6 | 0x8 | 0x9 => 0x03FF0000#32                  -- F-VH, F-VE: bits 25:16
  | 0x7 | 0xA => 0x03FFFFFF#32                        -- F-V: bits 25:0
  | 0xB => 0x03FFFF00#32                              -- F-VB: bits 25:8
  | 0xC | 0xD | 0xE => 0x03FFFFFE#32                  -- F-VG, F-VF: bits 25:1
  | _ => 0xFFFFFFFF#32

/-- A word is well formed when its opcode is not the reserved 0 and its must-be-zero bits are zero (R85, R88). -/
def WellFormed (w : Word) : Bool :=
  w.extractLsb' 28 4 != 0#4 && w &&& mustBeZero (w.extractLsb' 28 4) == 0#32

end Sys2Proof
end

