-- ==== Sys2Proof/Decode.lean ====
section
/-! DEFINITION. The decoder, as the opcode map of R84 selects a row, the encoder from the formats of R81, and the
written-out decoding procedure of R86. -/

namespace Sys2Proof

/-! Fields of a command word (R80, R83). -/

def opField (w : Word) : BitVec 4 := w.extractLsb' 28 4
def voiceField (w : Word) : VoiceField := w.extractLsb' 26 2
def addrField (w : Word) : Addr := w.extractLsb' 0 5
def imm8Field (w : Word) : Byte := w.extractLsb' 0 8
def imm16Field (w : Word) : Half := w.extractLsb' 0 16
def atkField (w : Word) : Nibble := w.extractLsb' 12 4
def decField (w : Word) : Nibble := w.extractLsb' 8 4
def susField (w : Word) : Nibble := w.extractLsb' 4 4
def relField (w : Word) : Nibble := w.extractLsb' 0 4
/-- `EN = w[0]`, where 1 means enabled (R83). -/
def enField (w : Word) : Bool := w.getLsbD 0

/-- A row of the opcode map: a word selects it where `(w & mask) = match` (R84). -/
structure Row where
  mnemonic : String
  mask : Word
  pattern : Word
  instr : Word → Instr

def Row.selects (r : Row) (w : Word) : Bool := w &&& r.mask == r.pattern

/-- The opcode map (R84; spec/opcode_table.json), in the table's order. -/
def opcodeMap : List Row := [
  ⟨"BUSADDR",   0xFFFFFFE0#32, 0x10000000#32, fun w => .busaddr (addrField w)⟩,
  ⟨"BUSDATA",   0xFFFFFF00#32, 0x20000000#32, fun w => .busdata (imm8Field w)⟩,
  ⟨"BUSCOMMIT", 0xFFFFFFFF#32, 0x30000000#32, fun _ => .buscommit⟩,
  ⟨"RESETCHIP", 0xFFFFFFFF#32, 0x40000000#32, fun _ => .resetchip⟩,
  ⟨"STARTCLK",  0xFFFFFFFF#32, 0x50000000#32, fun _ => .startclk⟩,
  ⟨"SETFREQ",   0xF3FF0000#32, 0x60000000#32, fun w => .setfreq (voiceField w) (imm16Field w)⟩,
  ⟨"UPDFREQ",   0xF3FFFFFF#32, 0x70000000#32, fun w => .updfreq (voiceField w)⟩,
  ⟨"SETPW",     0xF3FF0000#32, 0x80000000#32, fun w => .setpw (voiceField w) (imm16Field w)⟩,
  ⟨"SETENV",    0xF3FF0000#32, 0x90000000#32,
    fun w => .setenv (voiceField w) (atkField w) (decField w) (susField w) (relField w)⟩,
  ⟨"UPDENV",    0xF3FFFFFF#32, 0xA0000000#32, fun w => .updenv (voiceField w)⟩,
  ⟨"SETSHAPE",  0xF3FFFF00#32, 0xB0000000#32, fun w => .setshape (voiceField w) (imm8Field w)⟩,
  ⟨"VOICEON",   0xF3FFFFFF#32, 0xC0000001#32, fun w => .voiceon (voiceField w)⟩,
  ⟨"VOICEOFF",  0xF3FFFFFF#32, 0xC0000000#32, fun w => .voiceoff (voiceField w)⟩,
  ⟨"SETSYNC",   0xF3FFFFFE#32, 0xD0000000#32, fun w => .setsync (voiceField w) (enField w)⟩,
  ⟨"SETRING",   0xF3FFFFFE#32, 0xE0000000#32, fun w => .setring (voiceField w) (enField w)⟩,
  ⟨"SETVOL",    0xFFFFFF00#32, 0xF0000000#32, fun w => .setvol (imm8Field w)⟩]

/-- `decode(w)`: the row of the opcode map that `w` selects, or `none` for a reserved word (R86, R88). Total. -/
def decode (w : Word) : Option Instr :=
  (opcodeMap.find? (·.selects w)).map (·.instr w)

/-- The written-out decoding procedure of R86, line by line. It is the decoder's second reading, equal to `decode`. -/
def decodeWrittenOut (w : Word) : Option Instr :=
  let op := opField w
  if op = 0x0#4 then none
  else if (op = 0x3#4 ∨ op = 0x4#4 ∨ op = 0x5#4) ∧ w.extractLsb' 0 28 ≠ 0 then none
  else if op = 0x1#4 ∧ w.extractLsb' 5 23 ≠ 0 then none
  else if (op = 0x2#4 ∨ op = 0xF#4) ∧ w.extractLsb' 8 20 ≠ 0 then none
  else if (op = 0x6#4 ∨ op = 0x8#4 ∨ op = 0x9#4) ∧ w.extractLsb' 16 10 ≠ 0 then none
  else if (op = 0x7#4 ∨ op = 0xA#4 ∨ op = 0xC#4) ∧ w.extractLsb' 1 25 ≠ 0 then none
  else if (op = 0x7#4 ∨ op = 0xA#4) ∧ w.extractLsb' 0 1 ≠ 0 then none
  else if (op = 0xD#4 ∨ op = 0xE#4) ∧ w.extractLsb' 1 25 ≠ 0 then none
  else if op = 0xB#4 ∧ w.extractLsb' 8 18 ≠ 0 then none
  else if op = 0xC#4 then
    some (if w.extractLsb' 0 1 = 1#1 then .voiceon (voiceField w) else .voiceoff (voiceField w))
  else match op.toNat with
    | 0x1 => some (.busaddr (addrField w))
    | 0x2 => some (.busdata (imm8Field w))
    | 0x3 => some .buscommit
    | 0x4 => some .resetchip
    | 0x5 => some .startclk
    | 0x6 => some (.setfreq (voiceField w) (imm16Field w))
    | 0x7 => some (.updfreq (voiceField w))
    | 0x8 => some (.setpw (voiceField w) (imm16Field w))
    | 0x9 => some (.setenv (voiceField w) (atkField w) (decField w) (susField w) (relField w))
    | 0xA => some (.updenv (voiceField w))
    | 0xB => some (.setshape (voiceField w) (imm8Field w))
    | 0xD => some (.setsync (voiceField w) (enField w))
    | 0xE => some (.setring (voiceField w) (enField w))
    | 0xF => some (.setvol (imm8Field w))
    | _ => none

/-- A field's value at bit `lo` of a command word. -/
def put {n : Nat} (lo : Nat) (x : BitVec n) : Word := x.setWidth 32 <<< lo

/-- The word of a command, from the layouts of R81: `OP` at bit 28, `V` at bit 26, the operand fields below, zeros elsewhere. -/
def encode : Instr → Word
  | .busaddr a => put 28 0x1#4 ||| put 0 a
  | .busdata d => put 28 0x2#4 ||| put 0 d
  | .buscommit => put 28 0x3#4
  | .resetchip => put 28 0x4#4
  | .startclk => put 28 0x5#4
  | .setfreq v f => put 28 0x6#4 ||| put 26 v ||| put 0 f
  | .updfreq v => put 28 0x7#4 ||| put 26 v
  | .setpw v w => put 28 0x8#4 ||| put 26 v ||| put 0 w
  | .setenv v atk dec sus rel => put 28 0x9#4 ||| put 26 v ||| put 12 atk ||| put 8 dec ||| put 4 sus ||| put 0 rel
  | .updenv v => put 28 0xA#4 ||| put 26 v
  | .setshape v m => put 28 0xB#4 ||| put 26 v ||| put 0 m
  | .voiceon v => put 28 0xC#4 ||| put 26 v ||| put 0 1#1
  | .voiceoff v => put 28 0xC#4 ||| put 26 v ||| put 0 0#1
  | .setsync v en => put 28 0xD#4 ||| put 26 v ||| put 0 (BitVec.ofBool en)
  | .setring v en => put 28 0xE#4 ||| put 26 v ||| put 0 (BitVec.ofBool en)
  | .setvol x => put 28 0xF#4 ||| put 0 x

/-- The word the opcode table numbers `w` in `nbits` bits. A command is one 32-bit word (R80): the bits above `nbits` are 0. -/
def tableWord (nbits w : Nat) : Word := BitVec.ofNat 32 (w % 2 ^ nbits)

/-- The command the decoder reads from a table row's bits; a command word has 32 bits and no more (R80). -/
def decodeTableWord (nbits w : Nat) : Option Instr :=
  if nbits ≤ 32 then decode (tableWord nbits w) else none

end Sys2Proof
end

