-- ==== Sys2Proof/Config.lean ====
section
/-! DEFINITION. What is fixed for the block (R7) and what the spec leaves open as a parameter (R8). An open parameter
is an opaque constant: nothing can evaluate it. No command reads one; only the observations of
Machine/Observe.lean do, each as an argument. -/

namespace Sys2Proof

/-- The level of a line (R41). -/
inductive Level
  | low
  | high
  deriving DecidableEq, Repr, Inhabited

/-- `initLines`: the level of each output line before the block first drives it (R8, D7). -/
structure InitLines where
  a : Addr
  d : Byte
  rw : Level
  cs : Level
  res : Level
  deriving DecidableEq, Repr, Inhabited

namespace Config

/-- `VSTRIDE`: the distance between the register blocks of two voices (R7, R29). -/
def voiceStride : Nat := 7

/-- The bus cycles a write cycle waits before the strobe (R7, R102). -/
def setupWait : Nat := 1

/-- The bus cycles a write cycle waits with select active (R7, R102). -/
def strobeWait : Nat := 1

/-- The bus cycles the reset line is held HIGH before the pulse (R7, R110). -/
def resetHighWait : Nat := 2

/-- The bus cycles the reset line is held LOW (R7, R110). -/
def resetLowWait : Nat := 10

/-- `T_BUS`, the length of one bus cycle (R8, D8). FREE: the spec gives no number. -/
opaque tBus : Nat

/-- `F_CLK`, the frequency of the running clock line (R8, D9). FREE: the spec gives no number. -/
opaque fClk : Nat

/-- `initLines` (R8, D7). FREE. -/
opaque initLines : InitLines

/-- `chipResetImage`: what the chip's registers hold after a reset pulse (R8, D22). FREE. -/
opaque chipResetImage : Addr → Byte

/-- The part of a cutoff frequency that is other than 0 in register 21 (R36: "the split is not in the source"). FREE, log 8. -/
opaque cutoffLow : BitVec 11 → Byte

/-- The part of a cutoff frequency that is other than 0 in register 22 (R36). FREE, log 8. -/
opaque cutoffHigh : BitVec 11 → Byte

end Config

end Sys2Proof
end

