-- ==== Sys2Proof/Machine/State.lean ====
section
/-! DEFINITION. The state of the block (R20–R50), the two ways it stops, and the state at block reset. Plain data. -/

namespace Sys2Proof.Machine

/-- Why the machine stops with a fault. -/
inductive Fault
  /-- Raised by BUSCOMMIT alone, when the address or the data lines were never driven since block reset (R102, R201).
  SAFE: the chip would latch some byte at some address, and the model claims nothing about it. -/
  | undrivenBus
  deriving DecidableEq, Repr

/-- Why the machine gives a word no meaning. -/
inductive Refusal
  /-- Raised by the step when the presented word decodes to no command (R88, R201).
  SAFE: the block would signal nothing and go on. -/
  | reservedWord
  /-- Raised by a dispatch arm whose instruction has no meaning yet; no arm of this model raises it. SAFE. -/
  | notModelled (mnemonic : String)
  deriving DecidableEq, Repr

/-- The three voices of the chip (R7, R21). The out-of-range voice field 3 selects none (R82). -/
inductive VoiceIx
  | zero
  | one
  | two
  deriving DecidableEq, Repr

/-- A voice record `M.V[v]` (R22). -/
structure Voice where
  freq : Half
  pw : Half
  ctl : Byte
  ad : Byte
  sr : Byte
  deriving DecidableEq, Repr

/-- The filter record `M.F` (R23). -/
structure Filter where
  fc : BitVec 11
  resFilt : Byte
  modeVol : Byte
  deriving DecidableEq, Repr

/-- The misc record `M.X` (R24). -/
structure Misc where
  potX : Byte
  potY : Byte
  osc3 : Byte
  env3 : Byte
  deriving DecidableEq, Repr

/-- The chip-state mirror `M` (R21). -/
structure Mirror where
  v0 : Voice
  v1 : Voice
  v2 : Voice
  filter : Filter
  misc : Misc
  deriving DecidableEq, Repr

/-- The clock line's state `L.CLK` (R40). -/
inductive Clock
  | stopped
  | running
  deriving DecidableEq, Repr

/-- The output line latches `L` (R40). `none` is the spec's `⊥`: never driven since block reset. -/
structure Lines where
  a : Option Addr
  d : Option Byte
  rw : Option Level
  cs : Option Level
  res : Option Level
  clk : Clock
  deriving DecidableEq, Repr

/-- The lifecycle phase `LC` (R45). -/
inductive Phase
  | unpowered
  | ready
  deriving DecidableEq, Repr

/-- The events of the line trace (R9, R60). -/
inductive Event
  | a (x : Addr)
  | d (x : Byte)
  | rw (l : Level)
  | cs (l : Level)
  | res (l : Level)
  | wait (n : Nat)
  | clkOn
  | latch (x : Addr) (y : Byte)
  deriving DecidableEq, Repr

/-- The state of the block (R20). `trace` is the recorded history `T`, oldest event first; no command reads it.
`port` is the model's own: the command words the host has yet to present, next one first (R49, log 1). -/
structure State where
  mirror : Mirror
  lines : Lines
  phase : Phase
  fault : Option Fault
  refused : Bool
  trace : List Event
  port : List Word
  deriving DecidableEq, Repr

def Voice.zero : Voice := ⟨0, 0, 0, 0, 0⟩

/-- The mirror at construction: every field zero (R26). -/
def Mirror.zero : Mirror := ⟨.zero, .zero, .zero, ⟨0, 0, 0⟩, ⟨0, 0, 0, 0⟩⟩

/-- No line driven yet and the clock stopped (R50). -/
def Lines.undriven : Lines := ⟨none, none, none, none, none, .stopped⟩

/-- Block reset (R50, R250). The host has presented nothing. -/
def State.reset : State :=
  { mirror := .zero, lines := .undriven, phase := .unpowered, fault := none, refused := false, trace := [], port := [] }

end Sys2Proof.Machine
end

