-- ==== Sys2Proof/Machine/Ops.lean ====
section
/-! DEFINITION. The named operations over the state: mirror accessors, the primitives of R9, the register push of R10,
the reset pulse, how a command stops and what a stop leaves (R201), and the command port (R49). -/

namespace Sys2Proof.Machine

/-- What a command answers (R11). -/
abbrev Result := Host.Outcome State Fault Refusal

/-! ### Updates of one part of the state -/

def State.setMirror (m : Mirror) (s : State) : State := { s with mirror := m }
def State.setLines (l : Lines) (s : State) : State := { s with lines := l }
def State.setPhase (p : Phase) (s : State) : State := { s with phase := p }
def State.setPort (ws : List Word) (s : State) : State := { s with port := ws }

/-- Append one event to the line trace (R60: commands only ever append). -/
def State.emit (e : Event) (s : State) : State := { s with trace := s.trace ++ [e] }

/-! ### The mirror (R21) -/

def Mirror.voice (m : Mirror) : VoiceIx → Voice
  | .zero => m.v0
  | .one => m.v1
  | .two => m.v2

def Mirror.setVoice (m : Mirror) (k : VoiceIx) (x : Voice) : Mirror :=
  match k with
  | .zero => { m with v0 := x }
  | .one => { m with v1 := x }
  | .two => { m with v2 := x }

def Mirror.setFilter (m : Mirror) (f : Filter) : Mirror := { m with filter := f }

/-- Store a voice record in the mirror. -/
def State.setVoice (k : VoiceIx) (x : Voice) (s : State) : State := s.setMirror (s.mirror.setVoice k x)

/-- Store the filter record in the mirror. -/
def State.setFilter (f : Filter) (s : State) : State := s.setMirror (s.mirror.setFilter f)

/-! ### The primitives (R9), the only ways a command affects the outside world -/

/-- `DriveA(a)`: the address lines carry `a[4:0]`. -/
def driveA {n : Nat} (a : BitVec n) (s : State) : State :=
  (s.setLines { s.lines with a := some (a.setWidth 5) }).emit (.a (a.setWidth 5))

/-- `DriveD(d)`: the data lines carry `trunc_8(d)`. -/
def driveD {n : Nat} (d : BitVec n) (s : State) : State :=
  (s.setLines { s.lines with d := some (d.setWidth 8) }).emit (.d (d.setWidth 8))

/-- `DriveRW(l)`. -/
def driveRW (l : Level) (s : State) : State := (s.setLines { s.lines with rw := some l }).emit (.rw l)

/-- `DriveCS(l)`. -/
def driveCS (l : Level) (s : State) : State := (s.setLines { s.lines with cs := some l }).emit (.cs l)

/-- `DriveRES(l)`. -/
def driveRES (l : Level) (s : State) : State := (s.setLines { s.lines with res := some l }).emit (.res l)

/-- `Wait(n)`: every line holds its level for at least `n` bus cycles; no state changes. -/
def wait (n : Nat) (s : State) : State := s.emit (.wait n)

/-- `ClockOn()`. -/
def clockOn (s : State) : State := (s.setLines { s.lines with clk := .running }).emit .clkOn

/-- `Latch(a, d)`: the point at which the chip takes the byte. -/
def latch (a : Addr) (d : Byte) (s : State) : State := s.emit (.latch a d)

/-! ### Stopping (R201): the block has no trap entry and no return (R204, R205) -/

/-- `raise FAULT(reason)` (R11). The outcome carries no state: `record` says what it leaves. -/
def raise (f : Fault) : Result := .fault f

/-- `refuse(reason)` (R11). -/
def refuse (r : Refusal) : Result := .refused r

/-- The state a command leaves: the next state, or, after a fault or a refusal, the state it was presented in with the
sticky mark set and nothing else changed (R88, R201). -/
def record (s : State) : Result → State
  | .next t => t
  | .fault f => { s with fault := some f }
  | .refused _ => { s with refused := true }

/-- What a marked state answers: the model takes no further step after a fault or a refusal (R204). -/
def stopped (s : State) : Option Result :=
  match s.fault, s.refused with
  | some f, _ => some (raise f)
  | none, true => some (refuse .reservedWord)
  | none, false => none

/-! ### The write cycle (R102) and the register push (R10) -/

/-- The timed part of a write cycle, with address `a` and data `d` on the lines (R102 after its check). -/
def strobe (a : Addr) (d : Byte) (s : State) : State :=
  driveCS .high (latch a d (wait Config.strobeWait (driveCS .low (driveRW .low (wait Config.setupWait s)))))

/-- The body of BUSCOMMIT (R102): a cycle needs driven address and data lines. -/
def commit (s : State) : Result :=
  match s.lines.a, s.lines.d with
  | some a, some d => .next (strobe a d s)
  | _, _ => raise .undrivenBus

/-- `BusWrite(a, d)` (R10): address, then data, then the body of BUSCOMMIT, which cannot fault here because both were just
driven (R130); Laws/Ops.lean proves it equal to `commit` after the two drives. -/
def busWrite (a : Addr) (d : Byte) (s : State) : State := strobe a d (driveD d (driveA a s))

/-! ### The chip reset pulse (R110) -/

/-- The body of RESETCHIP up to its phase change (R110). -/
def resetPulse (s : State) : State :=
  driveRES .high (wait Config.resetLowWait (driveRES .low (wait Config.resetHighWait (driveRES .high s))))

/-- RESETCHIP reaches READY only with the clock running (R110, D18). -/
def readyIfClocked (s : State) : State :=
  match s.lines.clk with
  | .running => s.setPhase .ready
  | .stopped => s

/-! ### The command port (R49) -/

/-- The next word the host presents, and the state once the block has taken it; `none` when the host presents nothing. -/
def takeWord (s : State) : Option (Word × State) :=
  match s.port with
  | [] => none
  | w :: ws => some (w, s.setPort ws)

end Sys2Proof.Machine
end

