-- ==== Sys2Proof/Machine/BusEngine.lean ====
section
/-! DEFINITION. The bus-cycle engine's commands (40_bus_engine.md). -/

namespace Sys2Proof.Machine

/-- BUSADDR a (R100). -/
def execBusaddr (a : Addr) (s : State) : Result := .next (driveA a s)

/-- BUSDATA d (R101). -/
def execBusdata (d : Byte) (s : State) : Result := .next (driveD d s)

/-- BUSCOMMIT (R102): a write cycle with the address and data the lines hold; undriven lines fault. -/
def execBuscommit (s : State) : Result := commit s

end Sys2Proof.Machine
end

