-- ==== Sys2Proof/Machine/Flags.lean ====
section
/-! DEFINITION. The bit flags of the chip's control byte (R32) and the volume nibble (R38), each as its command computes
it. The block itself has no condition codes and no status flags (R47). -/

namespace Sys2Proof.Machine

/-- SETSHAPE's byte: waveform bits from the mask, bits 3:0 kept (R140). -/
def shapeByte (ctl m : Byte) : Byte := (ctl &&& 0x0F#8) ||| (m &&& 0xF0#8)

/-- VOICEON's byte: bit 0 set (R142). -/
def gateOn (ctl : Byte) : Byte := ctl ||| 0x01#8

/-- VOICEOFF's byte: bit 0 cleared (R144). -/
def gateOff (ctl : Byte) : Byte := ctl &&& 0xFE#8

/-- SETSYNC's byte: bit 1 cleared, then set if enabled (R146). -/
def syncByte (en : Bool) (ctl : Byte) : Byte :=
  let c := ctl &&& 0xFD#8
  if en then c ||| 0x02#8 else c

/-- SETRING's byte: bit 2 cleared, then set if enabled (R148). -/
def ringByte (en : Bool) (ctl : Byte) : Byte :=
  let c := ctl &&& 0xFB#8
  if en then c ||| 0x04#8 else c

/-- SETVOL's byte: volume from the operand's low nibble, bits 7:4 kept (R160). -/
def volumeByte (modeVol x : Byte) : Byte := (modeVol &&& 0xF0#8) ||| (x &&& 0x0F#8)

end Sys2Proof.Machine
end

