-- ==== Sys2Proof/Machine/Operands.lean ====
section
/-! DEFINITION. Every operand form: the voice operand (R82, R130), the register address of a field (R29), and how a
16-bit value or four nibbles become register bytes (R65, R124, R126). -/

namespace Sys2Proof.Machine

/-- The index of a voice. -/
def VoiceIx.index : VoiceIx → Nat
  | .zero => 0
  | .one => 1
  | .two => 2

/-- The voice a voice field selects; 3 is out of range (R82). -/
def selectVoice (v : VoiceField) : Option VoiceIx :=
  match v.toNat with
  | 0 => some .zero
  | 1 => some .one
  | 2 => some .two
  | _ => none

/-- The field value that selects a voice. -/
def VoiceIx.field (k : VoiceIx) : VoiceField := BitVec.ofNat 2 k.index

/-- A command with a voice operand: out of range it is a complete no-op, else it acts on the selected voice (R130). -/
def withVoice (v : VoiceField) (s : State) (act : VoiceIx → State) : Result :=
  match selectVoice v with
  | none => .next s
  | some k => .next (act k)

/-- The registers of a voice block, in the order of R29. -/
inductive VoiceReg
  | flo
  | fhi
  | plo
  | phi
  | ctl
  | ad
  | sr
  deriving DecidableEq, Repr

/-- The offset of a register in its voice's block (R29). -/
def VoiceReg.offset : VoiceReg → Nat
  | .flo => 0
  | .fhi => 1
  | .plo => 2
  | .phi => 3
  | .ctl => 4
  | .ad => 5
  | .sr => 6

/-- The address `7*v + offset` of a voice's register (R29). -/
def regAddr (k : VoiceIx) (r : VoiceReg) : Addr := BitVec.ofNat 5 (Config.voiceStride * k.index + r.offset)

/-- The mode/volume register `MVOL` (R31). -/
def mvolAddr : Addr := 24#5

/-- Bits 7:0 of a 16-bit field, for the lower address (R65). -/
def lowByte (x : Half) : Byte := x.extractLsb' 0 8

/-- Bits 15:8 of a 16-bit field, for the next address up (R65). -/
def highByte (x : Half) : Byte := x.extractLsb' 8 8

/-- The PHI byte `zext_8(w[11:8])`: bits 7:4 are always zero (R35, R124). -/
def pulseHighByte (w : Half) : Byte := (w.extractLsb' 8 4).setWidth 8

/-- `trunc_8((hi << 4) | (lo & 0x0F))` (R126). -/
def packNibbles (hi lo : Nibble) : Byte :=
  ((hi.setWidth 16 <<< 4) ||| (lo.setWidth 16 &&& 0x0F#16)).setWidth 8

end Sys2Proof.Machine
end

