-- ==== Sys2Proof/Machine/FacadeControl.lean ====
section
/-! DEFINITION. The façade commands for the control byte (43_facade_control.md): each computes a new byte from the
mirror's, stores it and pushes it to the voice's CTL register. -/

namespace Sys2Proof.Machine

/-- Replace a voice's control byte and push it (R130 steps 2 to 4). -/
def updateCtl (v : VoiceField) (new : Byte → Byte) (s : State) : Result :=
  withVoice v s fun k =>
    let c := new (s.mirror.voice k).ctl
    busWrite (regAddr k .ctl) c (s.setVoice k { s.mirror.voice k with ctl := c })

/-- SETSHAPE v, m (R140). -/
def execSetshape (v : VoiceField) (m : Byte) (s : State) : Result := updateCtl v (shapeByte · m) s

/-- VOICEON v (R142). -/
def execVoiceon (v : VoiceField) (s : State) : Result := updateCtl v gateOn s

/-- VOICEOFF v (R144). -/
def execVoiceoff (v : VoiceField) (s : State) : Result := updateCtl v gateOff s

/-- SETSYNC v, en (R146). -/
def execSetsync (v : VoiceField) (en : Bool) (s : State) : Result := updateCtl v (syncByte en) s

/-- SETRING v, en (R148). -/
def execSetring (v : VoiceField) (en : Bool) (s : State) : Result := updateCtl v (ringByte en) s

end Sys2Proof.Machine
end

