-- ==== Sys2Proof/Machine/FacadeVoice.lean ====
section
/-! DEFINITION. The façade commands for frequency, pulse width and envelope (42_facade_voice.md). -/

namespace Sys2Proof.Machine

/-- SETFREQ v, f (R120): the mirror only. -/
def execSetfreq (v : VoiceField) (f : Half) (s : State) : Result :=
  withVoice v s fun k => s.setVoice k { s.mirror.voice k with freq := f }

/-- UPDFREQ v (R122): FLO, then FHI. -/
def execUpdfreq (v : VoiceField) (s : State) : Result :=
  withVoice v s fun k =>
    let f := (s.mirror.voice k).freq
    busWrite (regAddr k .fhi) (highByte f) (busWrite (regAddr k .flo) (lowByte f) s)

/-- SETPW v, w (R124): all 16 bits to the mirror, 12 to PLO then PHI. -/
def execSetpw (v : VoiceField) (w : Half) (s : State) : Result :=
  withVoice v s fun k =>
    busWrite (regAddr k .phi) (pulseHighByte w)
      (busWrite (regAddr k .plo) (lowByte w) (s.setVoice k { s.mirror.voice k with pw := w }))

/-- SETENV v, atk, dec, sus, rel (R126): the mirror only. -/
def execSetenv (v : VoiceField) (atk dec sus rel : Nibble) (s : State) : Result :=
  withVoice v s fun k =>
    s.setVoice k { s.mirror.voice k with ad := packNibbles atk dec, sr := packNibbles sus rel }

/-- UPDENV v (R128): AD, then SR. -/
def execUpdenv (v : VoiceField) (s : State) : Result :=
  withVoice v s fun k =>
    let x := s.mirror.voice k
    busWrite (regAddr k .sr) x.sr (busWrite (regAddr k .ad) x.ad s)

end Sys2Proof.Machine
end

