-- ==== Sys2Proof/Machine/FacadeVolume.lean ====
section
/-! DEFINITION. The façade command for the master volume (44_facade_volume.md). -/

namespace Sys2Proof.Machine

/-- SETVOL x (R160): replace the volume nibble and push the mode/volume byte. -/
def execSetvol (x : Byte) (s : State) : Result :=
  let c := volumeByte s.mirror.filter.modeVol x
  .next (busWrite mvolAddr c (s.setFilter { s.mirror.filter with modeVol := c }))

end Sys2Proof.Machine
end

