-- ==== Sys2Proof/Machine/Lifecycle.lean ====
section
/-! DEFINITION. The lifecycle commands (41_lifecycle.md). Neither touches the mirror (R114). -/

namespace Sys2Proof.Machine

/-- RESETCHIP (R110). -/
def execResetchip (s : State) : Result := .next (readyIfClocked (resetPulse s))

/-- STARTCLK (R112): the clock, then the pulse, then READY. -/
def execStartclk (s : State) : Result := .next ((resetPulse (clockOn s)).setPhase .ready)

end Sys2Proof.Machine
end

