-- ==== Sys2Proof/Machine/Dispatch.lean ====
section
/-! DEFINITION. One arm per command. -/

namespace Sys2Proof.Machine

def exec (i : Instr) (s : State) : Host.Outcome State Fault Refusal :=
  match i with
  | .busaddr a => Sys2Proof.Machine.execBusaddr a s
  | .busdata d => Sys2Proof.Machine.execBusdata d s
  | .buscommit => Sys2Proof.Machine.execBuscommit s
  | .resetchip => Sys2Proof.Machine.execResetchip s
  | .startclk => Sys2Proof.Machine.execStartclk s
  | .setfreq v f => Sys2Proof.Machine.execSetfreq v f s
  | .updfreq v => Sys2Proof.Machine.execUpdfreq v s
  | .setpw v w => Sys2Proof.Machine.execSetpw v w s
  | .setenv v atk dec sus rel => Sys2Proof.Machine.execSetenv v atk dec sus rel s
  | .updenv v => Sys2Proof.Machine.execUpdenv v s
  | .setshape v m => Sys2Proof.Machine.execSetshape v m s
  | .voiceon v => Sys2Proof.Machine.execVoiceon v s
  | .voiceoff v => Sys2Proof.Machine.execVoiceoff v s
  | .setsync v en => Sys2Proof.Machine.execSetsync v en s
  | .setring v en => Sys2Proof.Machine.execSetring v en s
  | .setvol x => Sys2Proof.Machine.execSetvol x s

end Sys2Proof.Machine
end

