-- ==== Sys2Proof/Machine/Step.lean ====
section
/-! DEFINITION. One step: the block takes the next word of the command port, decodes it and performs it (R49, R86). -/

namespace Sys2Proof.Machine

/-- A marked state takes no further step (R204). Otherwise: with nothing presented the block waits (R50, log 2); a
reserved word is refused and never executes (R88, R203); any other word is performed to completion (R61). -/
def step (s : State) : Host.Outcome State Fault Refusal :=
  match stopped s with
  | some o => o
  | none =>
    match takeWord s with
    | none => .next s
    | some (w, t) =>
      match decode w with
      | none => refuse .reservedWord
      | some i => exec i t

/-- `s` with the table word `w` of `nbits` bits as the word the host presents next, before any it already has in line. -/
def State.withFetchWord (s : State) (nbits w : Nat) : State := s.setPort (tableWord nbits w :: s.port)

end Sys2Proof.Machine
end

