-- ==== Sys2Proof/Machine/Assembler.lean ====
section
/-! DEFINITION. The spec's assembly: pseudo-instructions (R90), constants (R91) and the operand lists with their ranges
(R89). Notation only; nothing in the block depends on it. -/

namespace Sys2Proof.Machine

/-! ### Pseudo-instructions (R90) -/

/-- `WRITE a, d`. -/
def pseudoWrite (a : Addr) (d : Byte) : List Instr := [.busaddr a, .busdata d, .buscommit]

/-- `FREQ v, f`. -/
def pseudoFreq (v : VoiceField) (f : Half) : List Instr := [.setfreq v f, .updfreq v]

/-- `ENV v, atk, dec, sus, rel`. -/
def pseudoEnv (v : VoiceField) (atk dec sus rel : Nibble) : List Instr := [.setenv v atk dec sus rel, .updenv v]

/-! ### Constants (R91). SAW, SQR and NOISE are the spec's general knowledge (GK2); no rule depends on them. -/

def shapeTri : Byte := 0x10#8
def shapeSaw : Byte := 0x20#8
def shapeSqr : Byte := 0x40#8
def shapeNoise : Byte := 0x80#8
def ctlGate : Byte := 0x01#8
def ctlSync : Byte := 0x02#8
def ctlRing : Byte := 0x04#8
def ctlTest : Byte := 0x08#8

/-! ### Assembly lines (R89) -/

/-- The mnemonics of an assembly line, pseudo-instructions among them. -/
inductive AsmOp
  | busaddr | busdata | buscommit | resetchip | startclk | setfreq | updfreq | setpw | setenv | updenv | setshape
  | voiceon | voiceoff | setsync | setring | setvol
  | write | freq | env
  deriving DecidableEq, Repr

/-- The commands an assembly line stands for; `none` for a wrong operand count or an operand out of its range (R89, R90). -/
def assemble : AsmOp → List Nat → Option (List Instr)
  | .busaddr, [a] => if a ≤ 31 then some [.busaddr (.ofNat 5 a)] else none
  | .busdata, [d] => if d ≤ 255 then some [.busdata (.ofNat 8 d)] else none
  | .buscommit, [] => some [.buscommit]
  | .resetchip, [] => some [.resetchip]
  | .startclk, [] => some [.startclk]
  | .setfreq, [v, f] => if v ≤ 3 ∧ f ≤ 65535 then some [.setfreq (.ofNat 2 v) (.ofNat 16 f)] else none
  | .updfreq, [v] => if v ≤ 3 then some [.updfreq (.ofNat 2 v)] else none
  | .setpw, [v, w] => if v ≤ 3 ∧ w ≤ 65535 then some [.setpw (.ofNat 2 v) (.ofNat 16 w)] else none
  | .setenv, [v, a, d, s, r] =>
    if v ≤ 3 ∧ a ≤ 15 ∧ d ≤ 15 ∧ s ≤ 15 ∧ r ≤ 15 then
      some [.setenv (.ofNat 2 v) (.ofNat 4 a) (.ofNat 4 d) (.ofNat 4 s) (.ofNat 4 r)]
    else none
  | .updenv, [v] => if v ≤ 3 then some [.updenv (.ofNat 2 v)] else none
  | .setshape, [v, m] => if v ≤ 3 ∧ m ≤ 255 then some [.setshape (.ofNat 2 v) (.ofNat 8 m)] else none
  | .voiceon, [v] => if v ≤ 3 then some [.voiceon (.ofNat 2 v)] else none
  | .voiceoff, [v] => if v ≤ 3 then some [.voiceoff (.ofNat 2 v)] else none
  | .setsync, [v, en] => if v ≤ 3 ∧ en ≤ 1 then some [.setsync (.ofNat 2 v) (en == 1)] else none
  | .setring, [v, en] => if v ≤ 3 ∧ en ≤ 1 then some [.setring (.ofNat 2 v) (en == 1)] else none
  | .setvol, [x] => if x ≤ 255 then some [.setvol (.ofNat 8 x)] else none
  | .write, [a, d] => if a ≤ 31 ∧ d ≤ 255 then some (pseudoWrite (.ofNat 5 a) (.ofNat 8 d)) else none
  | .freq, [v, f] => if v ≤ 3 ∧ f ≤ 65535 then some (pseudoFreq (.ofNat 2 v) (.ofNat 16 f)) else none
  | .env, [v, a, d, s, r] =>
    if v ≤ 3 ∧ a ≤ 15 ∧ d ≤ 15 ∧ s ≤ 15 ∧ r ≤ 15 then
      some (pseudoEnv (.ofNat 2 v) (.ofNat 4 a) (.ofNat 4 d) (.ofNat 4 s) (.ofNat 4 r))
    else none
  | _, _ => none

end Sys2Proof.Machine
end

