-- ==== Sys2Proof/Machine/RegisterMap.lean ====
section
/-! DEFINITION. The synthesizer register map (R28–R31, R63) and the register image of the mirror (R28, R30). -/

namespace Sys2Proof.Machine

/-- The 29 mapped registers of the chip (R30). -/
inductive Register
  | voice (k : VoiceIx) (r : VoiceReg)
  | fcLo
  | fcHi
  | resFilt
  | modeVol
  | potX
  | potY
  | osc3
  | env3
  deriving DecidableEq, Repr

/-- The register at an address: the table of R30, row by row. Addresses 29–31 are unmapped. -/
def register (a : Addr) : Option Register :=
  match a.toNat with
  | 0 => some (.voice .zero .flo)
  | 1 => some (.voice .zero .fhi)
  | 2 => some (.voice .zero .plo)
  | 3 => some (.voice .zero .phi)
  | 4 => some (.voice .zero .ctl)
  | 5 => some (.voice .zero .ad)
  | 6 => some (.voice .zero .sr)
  | 7 => some (.voice .one .flo)
  | 8 => some (.voice .one .fhi)
  | 9 => some (.voice .one .plo)
  | 10 => some (.voice .one .phi)
  | 11 => some (.voice .one .ctl)
  | 12 => some (.voice .one .ad)
  | 13 => some (.voice .one .sr)
  | 14 => some (.voice .two .flo)
  | 15 => some (.voice .two .fhi)
  | 16 => some (.voice .two .plo)
  | 17 => some (.voice .two .phi)
  | 18 => some (.voice .two .ctl)
  | 19 => some (.voice .two .ad)
  | 20 => some (.voice .two .sr)
  | 21 => some .fcLo
  | 22 => some .fcHi
  | 23 => some .resFilt
  | 24 => some .modeVol
  | 25 => some .potX
  | 26 => some .potY
  | 27 => some .osc3
  | 28 => some .env3
  | _ => none

/-- The chip-side access to an address (R30). -/
inductive ChipAccess
  | writable
  | readOnly
  | notInSource
  deriving DecidableEq, Repr

/-- The access column of R30. -/
def chipAccess (a : Addr) : ChipAccess :=
  match register a with
  | some .potX | some .potY | some .osc3 | some .env3 => .readOnly
  | some _ => .writable
  | none => .notInSource

/-- What the mirror says a voice register should hold (R30). -/
def Voice.image (x : Voice) : VoiceReg → Byte
  | .flo => lowByte x.freq
  | .fhi => highByte x.freq
  | .plo => lowByte x.pw
  | .phi => pulseHighByte x.pw
  | .ctl => x.ctl
  | .ad => x.ad
  | .sr => x.sr

/-- What the mirror says a register should hold (R30). A cutoff of 0 gives 0 in both its registers. The split of any other
cutoff is not in the source (R36): a free value, log 8. -/
def Register.image (m : Mirror) : Register → Byte
  | .voice k r => (m.voice k).image r
  | .fcLo => if m.filter.fc = 0 then 0 else Config.cutoffLow m.filter.fc
  | .fcHi => if m.filter.fc = 0 then 0 else Config.cutoffHigh m.filter.fc
  | .resFilt => m.filter.resFilt
  | .modeVol => m.filter.modeVol
  | .potX => m.misc.potX
  | .potY => m.misc.potY
  | .osc3 => m.misc.osc3
  | .env3 => m.misc.env3

/-- The register image `image(M)(a)` (R28); `none` is the spec's `⊥`. -/
def image (m : Mirror) (a : Addr) : Option Byte := (register a).map (Register.image m)

end Sys2Proof.Machine
end

