-- ==== Sys2Proof/Machine/Observe.lean ====
section
/-! DEFINITION. What an observer reads off the state: line levels (R41, R42), register writes (R60), the chip view (R66),
consistency (R67), the boot premises (R66, R256) and minimum durations (R270). No command uses any of it. -/

namespace Sys2Proof.Machine

/-! ### The event runs the rules name -/

/-- The six events of a write cycle (R102). -/
def cycleEvents (a : Addr) (d : Byte) : List Event :=
  [.wait 1, .rw .low, .cs .low, .wait 1, .latch a d, .cs .high]

/-- `W(a, d)`: the eight events of one BusWrite (R130). -/
def writeEvents (a : Addr) (d : Byte) : List Event :=
  [.a a, .d d, .wait 1, .rw .low, .cs .low, .wait 1, .latch a d, .cs .high]

/-- The five events of the chip reset pulse (R110). -/
def pulseEvents : List Event := [.res .high, .wait 2, .res .low, .wait 10, .res .high]

/-- What one register push leaves (R102, R130): the pair on the lines, write mode, chip deselected, `W(a, d)` appended. -/
def pushed (a : Addr) (d : Byte) (s : State) : State :=
  { s with
    lines := { s.lines with a := some a, d := some d, rw := some .low, cs := some .high }
    trace := s.trace ++ writeEvents a d }

/-! ### Line levels: a line not driven yet is at its level of `initLines` (R8, R50) -/

/-- The level of the address lines; line `Ai` carries bit `i` (R42). -/
def addressLevel (init : InitLines) (s : State) : Addr := s.lines.a.getD init.a

/-- The level of the data lines; line `Di` carries bit `i` (R42). -/
def dataLevel (init : InitLines) (s : State) : Byte := s.lines.d.getD init.d

def rwLevel (init : InitLines) (s : State) : Level := s.lines.rw.getD init.rw
def csLevel (init : InitLines) (s : State) : Level := s.lines.cs.getD init.cs
def resLevel (init : InitLines) (s : State) : Level := s.lines.res.getD init.res

/-- The frequency on the clock line, once it runs (R115). -/
def clockFrequency (fClk : Nat) (s : State) : Option Nat :=
  match s.lines.clk with
  | .running => some fClk
  | .stopped => none

/-- The latches after an event: only a drive of a line changes it (R40, R43). -/
def Lines.after (l : Lines) : Event → Lines
  | .a x => { l with a := some x }
  | .d x => { l with d := some x }
  | .rw v => { l with rw := some v }
  | .cs v => { l with cs := some v }
  | .res v => { l with res := some v }
  | .clkOn => { l with clk := .running }
  | .wait _ => l
  | .latch _ _ => l

/-- The latches a trace leaves, from block reset. -/
def replay (t : List Event) : Lines := t.foldl Lines.after .undriven

/-! ### Register writes and the chip view -/

/-- The pair of a LATCH event. -/
def Event.latched? : Event → Option (Addr × Byte)
  | .latch x y => some (x, y)
  | _ => none

/-- The register writes of a trace, in order (R60). -/
def latches (t : List Event) : List (Addr × Byte) := t.filterMap Event.latched?

/-- The byte an event latches at address `addr`. -/
def Event.latchedAt? (addr : Addr) : Event → Option Byte
  | .latch x y => if x = addr then some y else none
  | _ => none

/-- The part of a trace after its last `RES(LOW)`, or all of it (R66). -/
def afterLastReset (t : List Event) : List Event := (t.reverse.takeWhile (· ≠ .res .low)).reverse

/-- The chip view `CV(T)(a)` for a post-reset image `img` (R66). `none` is the spec's `⊥`. -/
def chipView (img : Addr → Byte) (t : List Event) (a : Addr) : Option Byte :=
  match ((afterLastReset t).filterMap (Event.latchedAt? a)).getLast? with
  | some d => some d
  | none => if .res .low ∈ t then some (img a) else none

/-- Mirror and chip are consistent (R67). -/
def Consistent (img : Addr → Byte) (s : State) : Prop :=
  ∀ a : Addr, a.toNat ≤ 24 → chipView img s.trace a ≠ none → chipView img s.trace a = image s.mirror a

/-- A RES or a LATCH event. -/
def Event.touchesChip : Event → Bool
  | .res _ => true
  | .latch _ _ => true
  | _ => false

/-- `BootedFirst(T)` (R66): one CLKON, and no RES or LATCH event before it. -/
abbrev BootedFirst (t : List Event) : Prop :=
  t.count .clkOn = 1 ∧ (t.takeWhile (· ≠ .clkOn)).all (fun e => !e.touchesChip) = true

/-- The launch premise on the line levels: the chip is deselected at block reset (R256). -/
abbrev LaunchPremise (init : InitLines) : Prop := init.cs = .high

/-! ### The commands by kind -/

/-- The voice operand of a command. -/
def voiceOperand : Instr → Option VoiceField
  | .busaddr _ | .busdata _ | .buscommit | .resetchip | .startclk | .setvol _ => none
  | .setfreq v _ | .updfreq v | .setpw v _ | .setenv v _ _ _ _ | .updenv v | .setshape v _ | .voiceon v
  | .voiceoff v | .setsync v _ | .setring v _ => some v

/-- The façade's eleven commands (R5, 42–44). -/
def isFacade : Instr → Bool
  | .busaddr _ | .busdata _ | .buscommit | .resetchip | .startclk => false
  | .setfreq _ _ | .updfreq _ | .setpw _ _ | .setenv _ _ _ _ _ | .updenv _ | .setshape _ _ | .voiceon _
  | .voiceoff _ | .setsync _ _ | .setring _ _ | .setvol _ => true

/-- The registers of a voice a command pushes, as addresses; none when out of range. -/
def voiceAddrs (v : VoiceField) (rs : List VoiceReg) : List Addr :=
  match selectVoice v with
  | none => []
  | some k => rs.map (regAddr k)

/-- The addresses a command's write cycles go to (R30 "façade-written by"; for BUSCOMMIT the held address). -/
def storeAddrs : Instr → State → List Addr
  | .busaddr _, _ => []
  | .busdata _, _ => []
  | .buscommit, s => s.lines.a.toList
  | .resetchip, _ => []
  | .startclk, _ => []
  | .setfreq _ _, _ => []
  | .updfreq v, _ => voiceAddrs v [.flo, .fhi]
  | .setpw v _, _ => voiceAddrs v [.plo, .phi]
  | .setenv _ _ _ _ _, _ => []
  | .updenv v, _ => voiceAddrs v [.ad, .sr]
  | .setshape v _, _ => voiceAddrs v [.ctl]
  | .voiceon v, _ => voiceAddrs v [.ctl]
  | .voiceoff v, _ => voiceAddrs v [.ctl]
  | .setsync v _, _ => voiceAddrs v [.ctl]
  | .setring v _, _ => voiceAddrs v [.ctl]
  | .setvol _, _ => [mvolAddr]

/-! ### Durations -/

/-- The bus cycles a trace waits (R9). -/
def waitCycles (t : List Event) : Nat :=
  (t.map fun e => match e with
    | .wait n => n
    | _ => 0).sum

/-- The least time a trace takes, for a bus cycle of length `tBus` (R9, R270). -/
def minDuration (tBus : Nat) (t : List Event) : Nat := waitCycles t * tBus

/-- The minimum bus cycles of a command: the table of R270. -/
def minCycles (i : Instr) : Nat :=
  if voiceOperand i = some 3#2 then 0
  else match i with
    | .busaddr _ | .busdata _ => 0
    | .buscommit => 2
    | .resetchip => 12
    | .startclk => 12
    | .setfreq _ _ | .setenv _ _ _ _ _ => 0
    | .updfreq _ | .setpw _ _ | .updenv _ => 4
    | .setshape _ _ | .voiceon _ | .voiceoff _ | .setsync _ _ | .setring _ _ => 2
    | .setvol _ => 2

/-! ### The observations at this machine's own parameters (R8) -/

/-- The chip view of this chip. -/
def State.chip (s : State) (a : Addr) : Option Byte := chipView Config.chipResetImage s.trace a

/-- The level of this machine's chip-select line. -/
def State.select (s : State) : Level := csLevel Config.initLines s

/-- The frequency on this machine's clock line. -/
def State.clock (s : State) : Option Nat := clockFrequency Config.fClk s

/-- The least time this machine has taken since block reset. -/
def State.leastTime (s : State) : Nat := minDuration Config.tBus s.trace

end Sys2Proof.Machine
end

