-- ==== Sys2Proof/Machine/Run.lean ====
section
/-! DEFINITION. Sequences of commands: the host's list of commands or words, and the states they lead to (R49, R70). -/

namespace Sys2Proof.Machine

/-- The next state of an answer that has one. -/
def next? : Result → Option State
  | .next t => some t
  | .fault _ => none
  | .refused _ => none

/-- Perform commands in order, stopping at the first that does not complete (R11, R70). -/
def execAll : List Instr → State → Result
  | [], s => .next s
  | i :: is, s =>
    match exec i s with
    | .next t => execAll is t
    | .fault f => .fault f
    | .refused r => .refused r

/-- The host presents more words after those it already has in line (R49). -/
def present (ws : List Word) (s : State) : State := s.setPort (s.port ++ ws)

/-- The state after one step, marks included: what a fault or a refusal leaves is its mark (R201). -/
def advance (s : State) : State := record s (step s)

/-- The state after `n` steps. -/
def advanceN : Nat → State → State
  | 0, s => s
  | n + 1, s => advanceN n (advance s)

end Sys2Proof.Machine
end

