-- ==== Sys2Proof/Safety.lean ====
section
/-! DEFINITION. What a safe state of the block is, in the terms the claims use. -/

namespace Sys2Proof.Machine

/-- No fault and no refusal so far: the premise of every claim about a run (R201). -/
abbrev Unmarked (s : State) : Prop := s.fault = none ∧ s.refused = false

/-- The mirror bits no command makes other than zero (R27): FC, RESFILT, MODEVOL[7:4], every misc field, and the test bit
of each voice's control byte. -/
abbrev AlwaysZeroBits (m : Mirror) : Prop :=
  m.filter.fc = 0 ∧ m.filter.resFilt = 0 ∧ m.filter.modeVol &&& 0xF0#8 = 0 ∧
  m.misc = ⟨0, 0, 0, 0⟩ ∧
  m.v0.ctl.getLsbD 3 = false ∧ m.v1.ctl.getLsbD 3 = false ∧ m.v2.ctl.getLsbD 3 = false

/-- The latches are exactly what the trace last drove (R9, R40). -/
abbrev LinesReplayTrace (s : State) : Prop := s.lines = replay s.trace

/-- READY and a running clock go together between commands (R45, R117). -/
abbrev PhaseFollowsClock (s : State) : Prop := s.phase = .ready ↔ s.lines.clk = .running

/-! ### The bus protocol: which event may follow, given the levels of the lines (R41, R102, R103, R271) -/

/-- May event `e` happen while the lines are as in `l`? A drive of address, data, read/write, reset or clock needs the chip
deselected. Select falls only in write mode with address and data driven. The chip latches only while selected, and takes
the very address and byte on the lines. Select rises only after it fell. -/
def busAllows (l : Lines) : Event → Bool
  | .a _ | .d _ | .rw _ | .res _ | .clkOn => l.cs != some .low
  | .cs .low => l.cs != some .low && l.rw == some .low && l.a.isSome && l.d.isSome
  | .cs .high => l.cs == some .low
  | .wait _ => true
  | .latch a d => l.cs == some .low && l.rw == some .low && l.a == some a && l.d == some d

/-- The latches after one more event of a trace that keeps the protocol; `none` once it was broken. -/
def followBus : Option Lines → Event → Option Lines
  | none, _ => none
  | some l, e => if busAllows l e then some (l.after e) else none

/-- Where the trace stands in a select pulse (R103). -/
inductive Select
  | idle
  | selected
  | latched
  deriving DecidableEq, Repr

/-- R103: each CS(LOW) is followed by exactly one LATCH and then one CS(HIGH), and, waits apart, by no other event between
(log 7); no LATCH and no CS(HIGH) stands outside a pulse. -/
def followSelect : Option Select → Event → Option Select
  | some .idle, .cs .low => some .selected
  | some .idle, .cs .high => none
  | some .idle, .latch _ _ => none
  | some .idle, _ => some .idle
  | some .selected, .wait _ => some .selected
  | some .selected, .latch _ _ => some .latched
  | some .selected, _ => none
  | some .latched, .cs .high => some .idle
  | some .latched, _ => none
  | none, _ => none

/-- The bus is at rest between commands: the trace keeps the protocol and its select pulses are whole; RW was never driven
HIGH and RES is not left LOW; once a byte was latched select is HIGH and RW is LOW, before that neither was driven
(R48, R103). -/
abbrev BusAtRest (s : State) : Prop :=
  s.trace.foldl followBus (some .undriven) = some s.lines ∧
  s.trace.foldl followSelect (some .idle) = some .idle ∧
  s.lines.rw ≠ some .high ∧ s.lines.res ≠ some .low ∧
  s.lines.cs = (if latches s.trace = [] then none else some .high) ∧
  s.lines.rw = (if latches s.trace = [] then none else some .low)

/-! ### The host's duties -/

/-- A unit of commands after which every register it stores in the mirror was pushed (R260): a command that pushes on set or
pushes only, or a mutate command followed by its push. -/
def isPushUnit : List Instr → Bool
  | [.setfreq v _, .updfreq u] => v == u
  | [.setenv v _ _ _ _, .updenv u] => v == u
  | [.setfreq _ _] => false
  | [.setenv _ _ _ _ _] => false
  | [i] => isFacade i
  | _ => false

/-- The chip is off the bus between commands and its view is the mirror's image at every writable register. -/
abbrev ChipAgrees (init : InitLines) (img : Addr → Byte) (s : State) : Prop :=
  csLevel init s = .high ∧ ∀ a : Addr, a.toNat ≤ 24 → chipView img s.trace a = image s.mirror a

end Sys2Proof.Machine
end

