-- ==== Sys2Proof/Certificates/Slice0/Obligations.lean ====
section
/-! DEFINITION. The statements for the provers. In a statement about a voice, `v` is the voice field, `k` the voice it
selects (`v.toNat = k.index`), and addresses and bytes are written from the spec's own expressions. -/

open Sys2Proof Sys2Proof.Machine

/-! ### Encoding (30_encoding.md) -/

/-- R84–R86: decoding the word of any command gives that command back, operands included. -/
def Obligations.DecodeEncodeRoundTrip : Prop := ∀ i : Instr, decode (encode i) = some i

/-- R84–R86: a word that decodes is the one word of its command, so no bit of it is dropped. -/
def Obligations.EncodeDecodeRoundTrip : Prop := ∀ (w : Word) (i : Instr), decode w = some i → encode i = w

/-- R84: the opcode map row by row, each row selecting by mask and match, and no word matching two rows. -/
def Obligations.OpcodeMapRowsAreDisjoint : Prop :=
  opcodeMap.map (fun r => (r.mnemonic, r.pattern, r.mask)) = [
    ("BUSADDR", 0x10000000#32, 0xFFFFFFE0#32), ("BUSDATA", 0x20000000#32, 0xFFFFFF00#32),
    ("BUSCOMMIT", 0x30000000#32, 0xFFFFFFFF#32), ("RESETCHIP", 0x40000000#32, 0xFFFFFFFF#32),
    ("STARTCLK", 0x50000000#32, 0xFFFFFFFF#32), ("SETFREQ", 0x60000000#32, 0xF3FF0000#32),
    ("UPDFREQ", 0x70000000#32, 0xF3FFFFFF#32), ("SETPW", 0x80000000#32, 0xF3FF0000#32),
    ("SETENV", 0x90000000#32, 0xF3FF0000#32), ("UPDENV", 0xA0000000#32, 0xF3FFFFFF#32),
    ("SETSHAPE", 0xB0000000#32, 0xF3FFFF00#32), ("VOICEON", 0xC0000001#32, 0xF3FFFFFF#32),
    ("VOICEOFF", 0xC0000000#32, 0xF3FFFFFF#32), ("SETSYNC", 0xD0000000#32, 0xF3FFFFFE#32),
    ("SETRING", 0xE0000000#32, 0xF3FFFFFE#32), ("SETVOL", 0xF0000000#32, 0xFFFFFF00#32)] ∧
  (∀ (w : Word) (r : Row), r ∈ opcodeMap → w &&& r.mask = r.pattern → decode w = some (r.instr w)) ∧
  opcodeMap.Pairwise (fun r q => ∀ w : Word, ¬(w &&& r.mask = r.pattern ∧ w &&& q.mask = q.pattern))

/-- R86: the decoder answers the command of a row exactly when the word selects that row, and it is the written-out
procedure, on all words. -/
def Obligations.DecodeIsTheWrittenOutProcedure : Prop :=
  (∀ (w : Word) (i : Instr), decode w = some i ↔ ∃ r ∈ opcodeMap, w &&& r.mask = r.pattern ∧ r.instr w = i) ∧
  ∀ w : Word, decode w = decodeWrittenOut w

/-- Words of the spec's encoding examples (R92, marked derived there) and decode vectors decode to their commands. -/
def Obligations.EncodingExamplesDecode : Prop :=
  decode 0x10000018#32 = some (.busaddr 24#5) ∧ decode 0x2000000F#32 = some (.busdata 0x0F#8) ∧
  decode 0x30000000#32 = some .buscommit ∧ decode 0x68001234#32 = some (.setfreq 2#2 0x1234#16) ∧
  decode 0x9800A5C3#32 = some (.setenv 2#2 10#4 5#4 12#4 3#4) ∧ decode 0xB40000FF#32 = some (.setshape 1#2 0xFF#8) ∧
  decode 0xCC000000#32 = some (.voiceoff 3#2) ∧ decode 0xD4000001#32 = some (.setsync 1#2 true) ∧
  decode 0x34000000#32 = none ∧ decode 0x60010000#32 = none

/-! ### The command port, refusals, faults and reset (R49, R88, R201, R204, R250) -/

/-- R88: the reserved words are those with OP = 0 or a one in a must-be-zero bit. Presenting one is refused, and leaves the
state as it was but for the REFUSED mark. -/
def Obligations.ReservedWordsAreRefused : Prop :=
  (∀ w : Word, decode w = none ↔
    w.extractLsb' 28 4 = 0#4 ∨ w &&& mustBeZero (w.extractLsb' 28 4) ≠ 0#32) ∧
  ∀ (s : State) (w : Word) (ws : List Word), Unmarked s → s.port = w :: ws → decode w = none →
    step s = .refused .reservedWord ∧ advance s = { s with refused := true }

/-- R49, R86: a step takes the word the host presents next and performs the command it decodes to; the words after it stay
in line. A word placed by `withFetchWord` is the next one. That the line of words stands in State is the model's (log 1). -/
def Obligations.StepPerformsTheDecodedCommand : Prop :=
  (∀ (s : State) (w : Word) (ws : List Word) (i : Instr), Unmarked s → s.port = w :: ws → decode w = some i →
    step s = exec i { s with port := ws }) ∧
  ∀ (s : State) (nbits w : Nat) (i : Instr), Unmarked s → decodeTableWord nbits w = some i →
    step (s.withFetchWord nbits w) = exec i s

/-- With nothing presented the block waits: the model's reading of "waits for the first command word" (R50), log 2. -/
def Obligations.BlockWaitsForAWord : Prop := ∀ s : State, Unmarked s → s.port = [] → step s = .next s

/-- R204, R205: after a fault or a refusal the model takes no further step, and the state stays as it is, mark and all. -/
def Obligations.MarkedStateTakesNoFurtherStep : Prop :=
  ∀ s : State, ¬Unmarked s → (∀ t : State, step s ≠ .next t) ∧ advance s = s

/-- R201, R207: in every state and phase every command completes, but for BUSCOMMIT with undriven address or data lines. -/
def Obligations.EveryCommandCompletesUnlessUndriven : Prop :=
  ∀ (i : Instr) (s : State),
    (∃ t, exec i s = .next t) ∨
    (i = .buscommit ∧ (s.lines.a = none ∨ s.lines.d = none) ∧ exec i s = .fault .undrivenBus)

/-- R46, R205: no command sets or clears a mark, and none touches the words in line. -/
def Obligations.CommandsKeepMarksAndPort : Prop :=
  ∀ (i : Instr) (s t : State), exec i s = .next t → t.fault = s.fault ∧ t.refused = s.refused ∧ t.port = s.port

/-- R250: block reset. (`port` empty is the model's, log 1.) -/
def Obligations.ResetLeavesTheRuleValues : Prop :=
  (∀ k, State.reset.mirror.voice k = { freq := 0#16, pw := 0#16, ctl := 0#8, ad := 0#8, sr := 0#8 }) ∧
  State.reset.mirror.filter = { fc := 0#11, resFilt := 0#8, modeVol := 0#8 } ∧
  State.reset.mirror.misc = { potX := 0#8, potY := 0#8, osc3 := 0#8, env3 := 0#8 } ∧
  State.reset.lines = { a := none, d := none, rw := none, cs := none, res := none, clk := .stopped } ∧
  State.reset.phase = .unpowered ∧ State.reset.fault = none ∧ State.reset.refused = false ∧ State.reset.trace = []

/-! ### The bus-cycle engine (40_bus_engine.md) -/

/-- R100: encoding and effect of BUSADDR; nothing else changes. -/
def Obligations.BusaddrDrivesTheAddressLines : Prop :=
  (∀ w : Word, w.extractLsb' 28 4 = 0x1#4 → w.extractLsb' 5 23 = 0#23 →
    decode w = some (.busaddr (w.extractLsb' 0 5))) ∧
  ∀ (a : Addr) (s : State), exec (.busaddr a) s =
    .next { s with lines := { s.lines with a := some a }, trace := s.trace ++ [.a a] }

/-- R101: encoding and effect of BUSDATA; nothing else changes. -/
def Obligations.BusdataDrivesTheDataLines : Prop :=
  (∀ w : Word, w.extractLsb' 28 4 = 0x2#4 → w.extractLsb' 8 20 = 0#20 →
    decode w = some (.busdata (w.extractLsb' 0 8))) ∧
  ∀ (d : Byte) (s : State), exec (.busdata d) s =
    .next { s with lines := { s.lines with d := some d }, trace := s.trace ++ [.d d] }

/-- R102: encoding and effect of BUSCOMMIT: one write cycle of the held pair, or, with undriven lines, the fault, which
leaves the state as it was but for the FAULT mark. -/
def Obligations.BuscommitIsOneWriteCycle : Prop :=
  decode 0x30000000#32 = some .buscommit ∧
  (∀ (a : Addr) (d : Byte) (s : State), s.lines.a = some a → s.lines.d = some d → exec .buscommit s =
    .next { s with
      lines := { s.lines with rw := some .low, cs := some .high }
      trace := s.trace ++ [.wait 1, .rw .low, .cs .low, .wait 1, .latch a d, .cs .high] }) ∧
  ∀ s : State, s.lines.a = none ∨ s.lines.d = none →
    exec .buscommit s = .fault .undrivenBus ∧
    record s (exec .buscommit s) = { s with fault := some .undrivenBus }

/-! ### Lifecycle (41_lifecycle.md) -/

/-- R110: encoding and effect of RESETCHIP: the pulse, READY only with the clock running, nothing else; the chip view
becomes the post-reset image. -/
def Obligations.ResetchipPulsesTheResetLine : Prop :=
  decode 0x40000000#32 = some .resetchip ∧
  ∀ s : State, ∃ t : State,
    exec .resetchip s = .next t ∧
    t = { s with
      lines := { s.lines with res := some .high }
      phase := if s.lines.clk = .running then .ready else s.phase
      trace := s.trace ++ [.res .high, .wait 2, .res .low, .wait 10, .res .high] } ∧
    ∀ (img : Addr → Byte) (a : Addr), chipView img t.trace a = some (img a)

/-- R112: encoding and effect of STARTCLK: the clock, the pulse, READY, nothing else. -/
def Obligations.StartclkStartsTheClockAndResets : Prop :=
  decode 0x50000000#32 = some .startclk ∧
  ∀ s : State, ∃ t : State,
    exec .startclk s = .next t ∧
    t = { s with
      lines := { s.lines with clk := .running, res := some .high }
      phase := .ready
      trace := s.trace ++ [.clkOn, .res .high, .wait 2, .res .low, .wait 10, .res .high] } ∧
    ∀ (img : Addr → Byte) (a : Addr), chipView img t.trace a = some (img a)

/-! ### The façade (42_facade_voice.md, 43_facade_control.md, 44_facade_volume.md)

Each statement gives the encoding, the no-op of voice field 3, and the whole next state for the fields 0 to 2. -/

/-- R82: the voice fields 0, 1 and 2 select voice 0, 1 and 2; with the field 3 every voice command decodes, from some word,
and is a complete no-op. -/
def Obligations.OutOfRangeVoiceIsANoOp : Prop :=
  selectVoice 0#2 = some .zero ∧ selectVoice 1#2 = some .one ∧ selectVoice 2#2 = some .two ∧
  ∀ (i : Instr) (s : State), voiceOperand i = some 3#2 →
    (∃ w : Word, decode w = some i) ∧ exec i s = .next s

/-- R120. -/
def Obligations.SetfreqStoresTheFrequency : Prop :=
  (∀ w : Word, w.extractLsb' 28 4 = 0x6#4 → w.extractLsb' 16 10 = 0#10 →
    decode w = some (.setfreq (w.extractLsb' 26 2) (w.extractLsb' 0 16))) ∧
  (∀ (f : Half) (s : State), exec (.setfreq 3#2 f) s = .next s) ∧
  ∀ (v : VoiceField) (k : VoiceIx) (f : Half) (s : State), v.toNat = k.index →
    exec (.setfreq v f) s = .next { s with mirror := s.mirror.setVoice k { s.mirror.voice k with freq := f } }

/-- R122. -/
def Obligations.UpdfreqPushesLowThenHigh : Prop :=
  (∀ w : Word, w.extractLsb' 28 4 = 0x7#4 → w.extractLsb' 0 26 = 0#26 →
    decode w = some (.updfreq (w.extractLsb' 26 2))) ∧
  (∀ s : State, exec (.updfreq 3#2) s = .next s) ∧
  ∀ (v : VoiceField) (k : VoiceIx) (s : State), v.toNat = k.index →
    exec (.updfreq v) s = .next
      (pushed (.ofNat 5 (7 * v.toNat + 1)) ((s.mirror.voice k).freq.extractLsb' 8 8)
        (pushed (.ofNat 5 (7 * v.toNat + 0)) ((s.mirror.voice k).freq.extractLsb' 0 8) s))

/-- R124. -/
def Obligations.SetpwStoresSixteenAndPushesTwelve : Prop :=
  (∀ w : Word, w.extractLsb' 28 4 = 0x8#4 → w.extractLsb' 16 10 = 0#10 →
    decode w = some (.setpw (w.extractLsb' 26 2) (w.extractLsb' 0 16))) ∧
  (∀ (w : Half) (s : State), exec (.setpw 3#2 w) s = .next s) ∧
  (∀ w : Half, ((w >>> 8) &&& 0x0F#16).setWidth 8 &&& 0xF0#8 = 0#8) ∧
  ∀ (v : VoiceField) (k : VoiceIx) (w : Half) (s : State), v.toNat = k.index →
    exec (.setpw v w) s = .next
      (pushed (.ofNat 5 (7 * v.toNat + 3)) (((w >>> 8) &&& 0x0F#16).setWidth 8)
        (pushed (.ofNat 5 (7 * v.toNat + 2)) ((w &&& 0xFF#16).setWidth 8)
          { s with mirror := s.mirror.setVoice k { s.mirror.voice k with pw := w } }))

/-- R126. -/
def Obligations.SetenvPacksTheNibbles : Prop :=
  (∀ w : Word, w.extractLsb' 28 4 = 0x9#4 → w.extractLsb' 16 10 = 0#10 →
    decode w = some (.setenv (w.extractLsb' 26 2) (w.extractLsb' 12 4) (w.extractLsb' 8 4)
      (w.extractLsb' 4 4) (w.extractLsb' 0 4))) ∧
  (∀ (atk dec sus rel : Nibble) (s : State), exec (.setenv 3#2 atk dec sus rel) s = .next s) ∧
  ∀ (v : VoiceField) (k : VoiceIx) (atk dec sus rel : Nibble) (s : State), v.toNat = k.index →
    exec (.setenv v atk dec sus rel) s = .next { s with
      mirror := s.mirror.setVoice k { s.mirror.voice k with ad := atk ++ dec, sr := sus ++ rel } }

/-- R128. -/
def Obligations.UpdenvPushesAdThenSr : Prop :=
  (∀ w : Word, w.extractLsb' 28 4 = 0xA#4 → w.extractLsb' 0 26 = 0#26 →
    decode w = some (.updenv (w.extractLsb' 26 2))) ∧
  (∀ s : State, exec (.updenv 3#2) s = .next s) ∧
  ∀ (v : VoiceField) (k : VoiceIx) (s : State), v.toNat = k.index →
    exec (.updenv v) s = .next
      (pushed (.ofNat 5 (7 * v.toNat + 6)) (s.mirror.voice k).sr
        (pushed (.ofNat 5 (7 * v.toNat + 5)) (s.mirror.voice k).ad s))

/-- R140. -/
def Obligations.SetshapeReplacesTheWaveformBits : Prop :=
  (∀ w : Word, w.extractLsb' 28 4 = 0xB#4 → w.extractLsb' 8 18 = 0#18 →
    decode w = some (.setshape (w.extractLsb' 26 2) (w.extractLsb' 0 8))) ∧
  (∀ (m : Byte) (s : State), exec (.setshape 3#2 m) s = .next s) ∧
  ∀ (v : VoiceField) (k : VoiceIx) (m c : Byte) (s : State), v.toNat = k.index →
    c = ((s.mirror.voice k).ctl &&& 0x0F#8) ||| (m &&& 0xF0#8) →
    c &&& 0x0F#8 = (s.mirror.voice k).ctl &&& 0x0F#8 ∧
    exec (.setshape v m) s = .next (pushed (.ofNat 5 (7 * v.toNat + 4)) c
      { s with mirror := s.mirror.setVoice k { s.mirror.voice k with ctl := c } })

/-- R142. -/
def Obligations.VoiceonSetsTheGate : Prop :=
  (∀ w : Word, w.extractLsb' 28 4 = 0xC#4 → w.extractLsb' 1 25 = 0#25 → w.extractLsb' 0 1 = 1#1 →
    decode w = some (.voiceon (w.extractLsb' 26 2))) ∧
  (∀ s : State, exec (.voiceon 3#2) s = .next s) ∧
  ∀ (v : VoiceField) (k : VoiceIx) (c : Byte) (s : State), v.toNat = k.index →
    c = (s.mirror.voice k).ctl ||| 0x01#8 →
    exec (.voiceon v) s = .next (pushed (.ofNat 5 (7 * v.toNat + 4)) c
      { s with mirror := s.mirror.setVoice k { s.mirror.voice k with ctl := c } })

/-- R144. -/
def Obligations.VoiceoffClearsTheGate : Prop :=
  (∀ w : Word, w.extractLsb' 28 4 = 0xC#4 → w.extractLsb' 1 25 = 0#25 → w.extractLsb' 0 1 = 0#1 →
    decode w = some (.voiceoff (w.extractLsb' 26 2))) ∧
  (∀ s : State, exec (.voiceoff 3#2) s = .next s) ∧
  (∀ (v : VoiceField) (k : VoiceIx) (c : Byte) (s : State), v.toNat = k.index →
    c = (s.mirror.voice k).ctl &&& 0xFE#8 →
    exec (.voiceoff v) s = .next (pushed (.ofNat 5 (7 * v.toNat + 4)) c
      { s with mirror := s.mirror.setVoice k { s.mirror.voice k with ctl := c } })) ∧
  ∀ (v : VoiceField) (k : VoiceIx) (s : State), v.toNat = k.index → ∃ t : State,
    execAll [.voiceon v, .voiceoff v] s = .next t ∧
    (t.mirror.voice k).ctl.getLsbD 0 = false

/-- R146. -/
def Obligations.SetsyncWritesTheSyncBit : Prop :=
  (∀ w : Word, w.extractLsb' 28 4 = 0xD#4 → w.extractLsb' 1 25 = 0#25 →
    decode w = some (.setsync (w.extractLsb' 26 2) (w.extractLsb' 0 1 == 1#1))) ∧
  (∀ (en : Bool) (s : State), exec (.setsync 3#2 en) s = .next s) ∧
  ∀ (v : VoiceField) (k : VoiceIx) (en : Bool) (c : Byte) (s : State), v.toNat = k.index →
    c = (if en then ((s.mirror.voice k).ctl &&& 0xFD#8) ||| 0x02#8 else (s.mirror.voice k).ctl &&& 0xFD#8) →
    exec (.setsync v en) s = .next (pushed (.ofNat 5 (7 * v.toNat + 4)) c
      { s with mirror := s.mirror.setVoice k { s.mirror.voice k with ctl := c } })

/-- R148. -/
def Obligations.SetringWritesTheRingBit : Prop :=
  (∀ w : Word, w.extractLsb' 28 4 = 0xE#4 → w.extractLsb' 1 25 = 0#25 →
    decode w = some (.setring (w.extractLsb' 26 2) (w.extractLsb' 0 1 == 1#1))) ∧
  (∀ (en : Bool) (s : State), exec (.setring 3#2 en) s = .next s) ∧
  ∀ (v : VoiceField) (k : VoiceIx) (en : Bool) (c : Byte) (s : State), v.toNat = k.index →
    c = (if en then ((s.mirror.voice k).ctl &&& 0xFB#8) ||| 0x04#8 else (s.mirror.voice k).ctl &&& 0xFB#8) →
    exec (.setring v en) s = .next (pushed (.ofNat 5 (7 * v.toNat + 4)) c
      { s with mirror := s.mirror.setVoice k { s.mirror.voice k with ctl := c } })

/-- R160. -/
def Obligations.SetvolReplacesTheVolumeNibble : Prop :=
  (∀ w : Word, w.extractLsb' 28 4 = 0xF#4 → w.extractLsb' 8 20 = 0#20 →
    decode w = some (.setvol (w.extractLsb' 0 8))) ∧
  ∀ (x c : Byte) (s : State), c = (s.mirror.filter.modeVol &&& 0xF0#8) ||| (x &&& 0x0F#8) →
    exec (.setvol x) s = .next (pushed 24#5 c
      { s with mirror := { s.mirror with filter := { s.mirror.filter with modeVol := c } } })

/-- R152: adding the value of a clear bit is setting it, and the sync and ring bits are so set. -/
def Obligations.AddingAClearBitIsOr : Prop :=
  (∀ (x : Byte) (k : Nat), k < 8 → x.getLsbD k = false → x + (1#8 <<< k) = x ||| (1#8 <<< k)) ∧
  ∀ c : Byte, syncByte true c = (c &&& 0xFD#8) + 2#8 ∧ ringByte true c = (c &&& 0xFB#8) + 4#8

/-! ### Frames and whole-machine rules -/

/-- R25: each mirror field changes only by the commands of its row, for the voice they name; FC, RESFILT and the misc
record by none. -/
def Obligations.MirrorFieldsHaveTheirWriters : Prop :=
  ∀ (i : Instr) (s t : State), exec i s = .next t →
    (∀ k, (t.mirror.voice k).freq ≠ (s.mirror.voice k).freq → ∃ v f, i = .setfreq v f ∧ v.toNat = k.index) ∧
    (∀ k, (t.mirror.voice k).pw ≠ (s.mirror.voice k).pw → ∃ v w, i = .setpw v w ∧ v.toNat = k.index) ∧
    (∀ k, (t.mirror.voice k).ctl ≠ (s.mirror.voice k).ctl → ∃ v, v.toNat = k.index ∧
      ((∃ m, i = .setshape v m) ∨ i = .voiceon v ∨ i = .voiceoff v ∨
        (∃ en, i = .setsync v en) ∨ ∃ en, i = .setring v en)) ∧
    (∀ k, ((t.mirror.voice k).ad ≠ (s.mirror.voice k).ad ∨ (t.mirror.voice k).sr ≠ (s.mirror.voice k).sr) →
      ∃ v atk dec sus rel, i = .setenv v atk dec sus rel ∧ v.toNat = k.index) ∧
    (t.mirror.filter.modeVol ≠ s.mirror.filter.modeVol → ∃ x, i = .setvol x) ∧
    t.mirror.filter.fc = s.mirror.filter.fc ∧ t.mirror.filter.resFilt = s.mirror.filter.resFilt ∧
    t.mirror.misc = s.mirror.misc

/-- R114: neither lifecycle command reads or writes the mirror, and neither drives address, data, read/write or select. -/
def Obligations.LifecycleLeavesMirrorAndBus : Prop :=
  ∀ (i : Instr) (s : State), i = .resetchip ∨ i = .startclk → ∃ t : State,
    exec i s = .next t ∧
    t.mirror = s.mirror ∧ t.lines.a = s.lines.a ∧ t.lines.d = s.lines.d ∧ t.lines.rw = s.lines.rw ∧
    t.lines.cs = s.lines.cs ∧
    ∀ m : Mirror, exec i { s with mirror := m } = .next { t with mirror := m }

/-- R117: the lifecycle state machine. UNPOWERED and STOPPED at reset; STARTCLK moves to READY and RUNNING; READY is
terminal; no command but the two lifecycle commands reads or writes the phase. -/
def Obligations.LifecycleStateMachine : Prop :=
  (State.reset.phase = .unpowered ∧ State.reset.lines.clk = .stopped) ∧
  (∀ s : State, ∃ t, exec .startclk s = .next t ∧ t.phase = .ready ∧ t.lines.clk = .running) ∧
  (∀ (i : Instr) (s t : State), exec i s = .next t → s.phase = .ready → t.phase = .ready) ∧
  ∀ (i : Instr) (s t : State) (p : Phase), i ≠ .startclk → i ≠ .resetchip → exec i s = .next t →
    t.phase = s.phase ∧ exec i { s with phase := p } = .next { t with phase := p }

/-- R115: once it runs the clock line carries its frequency for the life of the block, and only STARTCLK starts it. -/
def Obligations.ClockRunsOnceStarted : Prop :=
  ∀ (f : Nat) (i : Instr) (s t : State), exec i s = .next t →
    (clockFrequency f s = some f → clockFrequency f t = some f) ∧
    (clockFrequency f s = none → i ≠ .startclk → clockFrequency f t = none)

/-- R20, R60: a command only appends to the trace, and reads nothing of it: on any other trace it does the same and appends
the same events. -/
def Obligations.TraceGrowsAndIsNotRead : Prop :=
  ∀ (i : Instr) (s t : State) (u : List Event), exec i s = .next t → ∃ es : List Event,
    t.trace = s.trace ++ es ∧ exec i { s with trace := u } = .next { t with trace := u ++ es }

/-- The bit-range invariant of the control byte over every sequence of commands (43_facade_control.md, the rule after R148,
marked derived there): CTL[7:4] moves only by SETSHAPE, CTL[0] by VOICEON and VOICEOFF, CTL[1] by SETSYNC, CTL[2] by
SETRING, each of that voice, and CTL[3] never. -/
def Obligations.SequencesKeepControlBitRanges : Prop :=
  ∀ (is : List Instr) (s t : State) (v : VoiceField) (k : VoiceIx), v.toNat = k.index → execAll is s = .next t →
    ((∀ m, .setshape v m ∉ is) → (t.mirror.voice k).ctl &&& 0xF0#8 = (s.mirror.voice k).ctl &&& 0xF0#8) ∧
    (.voiceon v ∉ is → .voiceoff v ∉ is → (t.mirror.voice k).ctl.getLsbD 0 = (s.mirror.voice k).ctl.getLsbD 0) ∧
    ((∀ en, .setsync v en ∉ is) → (t.mirror.voice k).ctl.getLsbD 1 = (s.mirror.voice k).ctl.getLsbD 1) ∧
    ((∀ en, .setring v en ∉ is) → (t.mirror.voice k).ctl.getLsbD 2 = (s.mirror.voice k).ctl.getLsbD 2) ∧
    (t.mirror.voice k).ctl.getLsbD 3 = (s.mirror.voice k).ctl.getLsbD 3

/-- The minimum durations of the commands (70_reset_and_hazards.md section 4, the table marked derived there), as the
waits each command appends. -/
def Obligations.CommandsWaitTheirBusCycles : Prop :=
  ∀ (i : Instr) (s t : State), exec i s = .next t → waitCycles t.trace = waitCycles s.trace + minCycles i

/-! ### Invariants -/

/-- The always-zero bits stay zero (10_state.md section 2, marked derived there). -/
def Obligations.StepKeepsAlwaysZeroBits : Prop :=
  ∀ s t : State, AlwaysZeroBits s.mirror → step s = .next t → AlwaysZeroBits t.mirror

/-- R9, R40, R43: the latches stay what the trace last drove; nothing else changes a line. -/
def Obligations.StepKeepsLinesReplayingTheTrace : Prop :=
  ∀ s t : State, LinesReplayTrace s → step s = .next t → LinesReplayTrace t

/-- R102, R41 and the rule on select after R102 (marked derived there): between commands the bus is at rest and the whole
trace keeps the bus protocol. How the select rule's words are read is log 7. -/
def Obligations.StepKeepsTheBusAtRest : Prop := ∀ s t : State, BusAtRest s → step s = .next t → BusAtRest t

/-- R45: READY and a running clock stay together. -/
def Obligations.StepKeepsPhaseWithClock : Prop :=
  ∀ s t : State, PhaseFollowsClock s → step s = .next t → PhaseFollowsClock t

/-- Block reset meets the four invariants. -/
def Obligations.ResetMeetsTheInvariants : Prop :=
  AlwaysZeroBits State.reset.mirror ∧ LinesReplayTrace State.reset ∧ BusAtRest State.reset ∧
  PhaseFollowsClock State.reset

/-- Every state that block reset leads to, whatever words the host presents and however far the block has come, stopped or
not, meets the four invariants: the always-zero bits (10_state.md section 2, marked derived there), the lines as the trace
last drove them (R9, R40, R43), the bus protocol (R102 and the rule on select after it, marked derived there and read as
log 7 says), and the phase with the clock (R45, R110, R112). Block reset is R50, whole commands are R61. -/
def Obligations.ReachableStatesMeetTheInvariants : Prop :=
  ∀ (ws : List Word) (n : Nat) (s : State), s = advanceN n (present ws State.reset) →
    AlwaysZeroBits s.mirror ∧ LinesReplayTrace s ∧ BusAtRest s ∧ PhaseFollowsClock s

/-! ### Register writes, the chip view and the boot premises (20_memory.md, 70_reset_and_hazards.md) -/

/-- R28–R31, R36: the register image. The registers of a cutoff other than 0 are free (log 8). -/
def Obligations.ImageFollowsTheRegisterMap : Prop :=
  ∀ m : Mirror,
    (∀ k : VoiceIx,
      image m (.ofNat 5 (7 * k.index + 0)) = some ((m.voice k).freq.extractLsb' 0 8) ∧
      image m (.ofNat 5 (7 * k.index + 1)) = some ((m.voice k).freq.extractLsb' 8 8) ∧
      image m (.ofNat 5 (7 * k.index + 2)) = some ((m.voice k).pw.extractLsb' 0 8) ∧
      image m (.ofNat 5 (7 * k.index + 3)) = some (((m.voice k).pw.extractLsb' 8 4).setWidth 8) ∧
      image m (.ofNat 5 (7 * k.index + 4)) = some (m.voice k).ctl ∧
      image m (.ofNat 5 (7 * k.index + 5)) = some (m.voice k).ad ∧
      image m (.ofNat 5 (7 * k.index + 6)) = some (m.voice k).sr) ∧
    (m.filter.fc = 0 → image m 21#5 = some 0 ∧ image m 22#5 = some 0) ∧
    image m 23#5 = some m.filter.resFilt ∧ image m 24#5 = some m.filter.modeVol ∧
    image m 25#5 = some m.misc.potX ∧ image m 26#5 = some m.misc.potY ∧
    image m 27#5 = some m.misc.osc3 ∧ image m 28#5 = some m.misc.env3 ∧
    ∀ a : Addr, 29 ≤ a.toNat → image m a = none

/-- R42: line `Ai` carries bit `i` of the address driven, `Di` bit `i` of the byte. -/
def Obligations.LinesCarryTheBitsDriven : Prop :=
  ∀ (init : InitLines) (s : State),
    (∀ a : Addr, ∃ t, exec (.busaddr a) s = .next t ∧ ∀ i < 5, (addressLevel init t).getLsbD i = a.getLsbD i) ∧
    (∀ d : Byte, ∃ t, exec (.busdata d) s = .next t ∧ ∀ i < 8, (dataLevel init t).getLsbD i = d.getLsbD i)

/-- R30, R39, R64: a command makes exactly the register writes its store addresses say, and a façade command writes only
registers 0–20 and 24. -/
def Obligations.RegisterWritesGoToTheStoreAddresses : Prop :=
  ∀ (i : Instr) (s t : State), exec i s = .next t →
    (latches t.trace).map Prod.fst = (latches s.trace).map Prod.fst ++ storeAddrs i s ∧
    (isFacade i → ∀ a ∈ storeAddrs i s, a.toNat ≤ 20 ∨ a.toNat = 24)

/-- R62, R66, R69: frame of the chip's registers. Outside its store addresses a command that pulses no reset leaves every
register of the chip view as it was. -/
def Obligations.ChipViewChangesOnlyAtStoreAddresses : Prop :=
  ∀ (img : Addr → Byte) (i : Instr) (s t : State) (a : Addr), i ≠ .resetchip → i ≠ .startclk →
    exec i s = .next t → a ∉ storeAddrs i s → chipView img t.trace a = chipView img s.trace a

/-- R66, R67: at its store addresses a façade command leaves the chip view equal to the mirror's image, and BUSCOMMIT leaves
the byte on the data lines. -/
def Obligations.ChipViewAtStoreAddresses : Prop :=
  ∀ (img : Addr → Byte) (i : Instr) (s t : State) (a : Addr), exec i s = .next t → a ∈ storeAddrs i s →
    (isFacade i → chipView img t.trace a = image t.mirror a) ∧
    (i = .buscommit → chipView img t.trace a = s.lines.d)

/-- R67: which commands keep mirror and chip consistent. BUSADDR, BUSDATA, the pushes and the push-on-set commands keep it;
SETFREQ and SETENV with their push keep it, alone they may break it; a raw write of a byte other than the image to a
register 0–24 breaks it. (Of the chip itself such a claim holds under the premises of R66 and R256, log 11.) -/
def Obligations.CommandsEffectOnConsistency : Prop :=
  (∀ (img : Addr → Byte) (i : Instr) (s t : State), exec i s = .next t → Consistent img s →
    (isPushUnit [i] ∨ (∃ a, i = .busaddr a) ∨ ∃ d, i = .busdata d) → Consistent img t) ∧
  (∀ (img : Addr → Byte) (v : VoiceField) (f : Half) (s t : State), Consistent img s →
    execAll [.setfreq v f, .updfreq v] s = .next t → Consistent img t) ∧
  (∀ (img : Addr → Byte) (v : VoiceField) (atk dec sus rel : Nibble) (s t : State), Consistent img s →
    execAll [.setenv v atk dec sus rel, .updenv v] s = .next t → Consistent img t) ∧
  (∀ (img : Addr → Byte) (s t : State) (a : Addr) (d : Byte), exec .buscommit s = .next t →
    s.lines.a = some a → s.lines.d = some d → a.toNat ≤ 24 → image s.mirror a ≠ some d → ¬Consistent img t) ∧
  ∃ (img : Addr → Byte) (s t u : State), Consistent img s ∧
    exec (.setfreq 0#2 1#16) s = .next t ∧ ¬Consistent img t ∧
    exec (.setenv 0#2 0#4 0#4 0#4 1#4) s = .next u ∧ ¬Consistent img u

/-- R257: after STARTCLK from block reset the chip view of a register 0–24 agrees with the mirror's image, which is 0,
exactly when the post-reset image is 0 there. One command from the one state of block reset. -/
def Obligations.BootConsistencyNeedsAZeroResetImage : Prop :=
  ∃ t : State, exec .startclk State.reset = .next t ∧
    ∀ (img : Addr → Byte) (a : Addr), a.toNat ≤ 24 →
      image t.mirror a = some 0#8 ∧ (chipView img t.trace a = image t.mirror a ↔ img a = 0#8)

/-- R66: once BootedFirst holds every command but STARTCLK keeps it, and a second STARTCLK ends it. -/
def Obligations.BootedFirstIsKept : Prop :=
  ∀ (i : Instr) (s t : State), BootedFirst s.trace → exec i s = .next t →
    (BootedFirst t.trace ↔ i ≠ .startclk)

/-- The headline of the boot and hazard rules (R255, R256, R257, R260): with the chip deselected at block reset and a zero
post-reset image, a host that issues STARTCLK first and then façade commands, each SETFREQ and SETENV followed by its push,
always runs to completion, keeps BootedFirst, and leaves the chip off the bus with its registers 0–24 as the mirror says. -/
def Obligations.BootedFacadeRunsKeepTheChipInAgreement : Prop :=
  ∀ (init : InitLines) (img : Addr → Byte) (units : List (List Instr)),
    LaunchPremise init → (∀ a : Addr, a.toNat ≤ 24 → img a = 0#8) → (∀ u ∈ units, isPushUnit u) →
    ∃ t : State, execAll (.startclk :: units.flatten) State.reset = .next t ∧
      BootedFirst t.trace ∧ ChipAgrees init img t

/-- Torn pushes (70_reset_and_hazards.md section 3, marked derived there): between the two write cycles of a command that
makes two, the chip holds the first new byte beside the second old one. -/
def Obligations.TwoCyclePushesTear : Prop :=
  ∀ (img : Addr → Byte) (i : Instr) (s t : State) (a b : Addr), exec i s = .next t → storeAddrs i s = [a, b] →
    ∃ t₁ t₂ : List Event, t.trace = t₁ ++ t₂ ∧ (latches t₂).length = 1 ∧
      chipView img t₁ a = chipView img t.trace a ∧ chipView img t₁ b = chipView img s.trace b

/-- The pending window (70_reset_and_hazards.md section 3, marked derived there): whatever other commands come between, the
push sends the last value set. -/
def Obligations.PendingValuesArePushedLater : Prop :=
  (∀ (v : VoiceField) (k : VoiceIx) (f : Half) (is : List Instr) (s t : State), v.toNat = k.index →
    (∀ g, .setfreq v g ∉ is) → execAll (.setfreq v f :: is) s = .next t →
    exec (.updfreq v) t = .next
      (pushed (.ofNat 5 (7 * v.toNat + 1)) (f.extractLsb' 8 8)
        (pushed (.ofNat 5 (7 * v.toNat + 0)) (f.extractLsb' 0 8) t))) ∧
  ∀ (v : VoiceField) (k : VoiceIx) (atk dec sus rel : Nibble) (is : List Instr) (s t : State), v.toNat = k.index →
    (∀ a d u r, .setenv v a d u r ∉ is) → execAll (.setenv v atk dec sus rel :: is) s = .next t →
    exec (.updenv v) t = .next
      (pushed (.ofNat 5 (7 * v.toNat + 6)) (sus ++ rel)
        (pushed (.ofNat 5 (7 * v.toNat + 5)) (atk ++ dec) t))

/-- R90: the pseudo-instructions expand to their commands, and the events of WRITE are those of a BusWrite. -/
def Obligations.PseudoInstructionsExpand : Prop :=
  (∀ (a : Addr) (d : Byte), assemble .write [a.toNat, d.toNat] = some [.busaddr a, .busdata d, .buscommit]) ∧
  (∀ (v : VoiceField) (f : Half), assemble .freq [v.toNat, f.toNat] = some [.setfreq v f, .updfreq v]) ∧
  (∀ (v : VoiceField) (atk dec sus rel : Nibble),
    assemble .env [v.toNat, atk.toNat, dec.toNat, sus.toNat, rel.toNat] =
      some [.setenv v atk dec sus rel, .updenv v]) ∧
  ∀ (a : Addr) (d : Byte) (s : State), execAll [.busaddr a, .busdata d, .buscommit] s =
    .next { s with
      lines := { s.lines with a := some a, d := some d, rw := some .low, cs := some .high }
      trace := s.trace ++
        [.a a, .d d, .wait 1, .rw .low, .cs .low, .wait 1, .latch a d, .cs .high] }

/-- Held lines and the raw-sequence hazard (10_state.md section 6 and 70_reset_and_hazards.md section 3, marked derived
there): after a push BUSCOMMIT writes that pair again, so a push between the parts of a raw write takes its place. -/
def Obligations.HeldLinesAreRelatched : Prop :=
  (∀ (a : Addr) (d : Byte) (s : State), exec .buscommit (pushed a d s) =
    .next { pushed a d s with trace := s.trace ++ writeEvents a d ++ cycleEvents a d }) ∧
  ∀ (a : Addr) (d : Byte) (v : VoiceField) (k : VoiceIx) (s : State) (c : Byte), v.toNat = k.index →
    c = (s.mirror.voice k).ctl ||| 0x01#8 → ∃ t : State,
    execAll [.busaddr a, .busdata d, .voiceon v, .buscommit] s = .next t ∧
    latches t.trace = latches s.trace ++ [(.ofNat 5 (7 * v.toNat + 4), c), (.ofNat 5 (7 * v.toNat + 4), c)]
end

