-- ==== Sys2Proof/Laws/Decode.lean ====
section
/-! SUPPORT. The decoder, opcode by opcode: the opcode decides which rows of the opcode map can select a word. -/

namespace Sys2Proof

/-- A row of another opcode does not select a word. -/
theorem selects_other {w m p : Word} (hm : m.extractLsb' 28 4 = 0xF#4)
    (h : p.extractLsb' 28 4 ≠ w.extractLsb' 28 4) : (w &&& m == p) = false := by
  rw [beq_eq_false_iff_ne]
  rintro rfl
  simp only [BitVec.extractLsb'_and, hm] at h
  exact h (by rw [show (15#4) = BitVec.allOnes 4 from rfl, BitVec.and_allOnes])

section Opcodes

variable {w : Word}

theorem decode_op0 (h : w.extractLsb' 28 4 = 0x0#4) : decode w = none := by
  have o := fun (m p : Word) (hm : m.extractLsb' 28 4 = 0xF#4) (hp : p.extractLsb' 28 4 ≠ 0x0#4) =>
    selects_other (w := w) hm (h ▸ hp)
  simp [decode, opcodeMap, Row.selects, o]

theorem decode_op1 (h : w.extractLsb' 28 4 = 0x1#4) :
    decode w = if w &&& 0xFFFFFFE0#32 = 0x10000000#32 then some (.busaddr (addrField w)) else none := by
  have o := fun (m p : Word) (hm : m.extractLsb' 28 4 = 0xF#4) (hp : p.extractLsb' 28 4 ≠ 0x1#4) =>
    selects_other (w := w) hm (h ▸ hp)
  simp [decode, opcodeMap, List.find?_cons, Row.selects, o]
  split <;> simp_all

theorem decode_op2 (h : w.extractLsb' 28 4 = 0x2#4) :
    decode w = if w &&& 0xFFFFFF00#32 = 0x20000000#32 then some (.busdata (imm8Field w)) else none := by
  have o := fun (m p : Word) (hm : m.extractLsb' 28 4 = 0xF#4) (hp : p.extractLsb' 28 4 ≠ 0x2#4) =>
    selects_other (w := w) hm (h ▸ hp)
  simp [decode, opcodeMap, List.find?_cons, Row.selects, o]
  split <;> simp_all

theorem decode_op3 (h : w.extractLsb' 28 4 = 0x3#4) :
    decode w = if w &&& 0xFFFFFFFF#32 = 0x30000000#32 then some .buscommit else none := by
  have o := fun (m p : Word) (hm : m.extractLsb' 28 4 = 0xF#4) (hp : p.extractLsb' 28 4 ≠ 0x3#4) =>
    selects_other (w := w) hm (h ▸ hp)
  simp [decode, opcodeMap, List.find?_cons, Row.selects, o]
  split <;> simp_all

theorem decode_op4 (h : w.extractLsb' 28 4 = 0x4#4) :
    decode w = if w &&& 0xFFFFFFFF#32 = 0x40000000#32 then some .resetchip else none := by
  have o := fun (m p : Word) (hm : m.extractLsb' 28 4 = 0xF#4) (hp : p.extractLsb' 28 4 ≠ 0x4#4) =>
    selects_other (w := w) hm (h ▸ hp)
  simp [decode, opcodeMap, List.find?_cons, Row.selects, o]
  split <;> simp_all

theorem decode_op5 (h : w.extractLsb' 28 4 = 0x5#4) :
    decode w = if w &&& 0xFFFFFFFF#32 = 0x50000000#32 then some .startclk else none := by
  have o := fun (m p : Word) (hm : m.extractLsb' 28 4 = 0xF#4) (hp : p.extractLsb' 28 4 ≠ 0x5#4) =>
    selects_other (w := w) hm (h ▸ hp)
  simp [decode, opcodeMap, List.find?_cons, Row.selects, o]
  split <;> simp_all

theorem decode_op6 (h : w.extractLsb' 28 4 = 0x6#4) :
    decode w = if w &&& 0xF3FF0000#32 = 0x60000000#32 then some (.setfreq (voiceField w) (imm16Field w)) else none := by
  have o := fun (m p : Word) (hm : m.extractLsb' 28 4 = 0xF#4) (hp : p.extractLsb' 28 4 ≠ 0x6#4) =>
    selects_other (w := w) hm (h ▸ hp)
  simp [decode, opcodeMap, List.find?_cons, Row.selects, o]
  split <;> simp_all

theorem decode_op7 (h : w.extractLsb' 28 4 = 0x7#4) :
    decode w = if w &&& 0xF3FFFFFF#32 = 0x70000000#32 then some (.updfreq (voiceField w)) else none := by
  have o := fun (m p : Word) (hm : m.extractLsb' 28 4 = 0xF#4) (hp : p.extractLsb' 28 4 ≠ 0x7#4) =>
    selects_other (w := w) hm (h ▸ hp)
  simp [decode, opcodeMap, List.find?_cons, Row.selects, o]
  split <;> simp_all

theorem decode_op8 (h : w.extractLsb' 28 4 = 0x8#4) :
    decode w = if w &&& 0xF3FF0000#32 = 0x80000000#32 then some (.setpw (voiceField w) (imm16Field w)) else none := by
  have o := fun (m p : Word) (hm : m.extractLsb' 28 4 = 0xF#4) (hp : p.extractLsb' 28 4 ≠ 0x8#4) =>
    selects_other (w := w) hm (h ▸ hp)
  simp [decode, opcodeMap, List.find?_cons, Row.selects, o]
  split <;> simp_all

theorem decode_op9 (h : w.extractLsb' 28 4 = 0x9#4) :
    decode w = if w &&& 0xF3FF0000#32 = 0x90000000#32 then some (.setenv (voiceField w) (atkField w) (decField w) (susField w) (relField w)) else none := by
  have o := fun (m p : Word) (hm : m.extractLsb' 28 4 = 0xF#4) (hp : p.extractLsb' 28 4 ≠ 0x9#4) =>
    selects_other (w := w) hm (h ▸ hp)
  simp [decode, opcodeMap, List.find?_cons, Row.selects, o]
  split <;> simp_all

theorem decode_opA (h : w.extractLsb' 28 4 = 0xA#4) :
    decode w = if w &&& 0xF3FFFFFF#32 = 0xA0000000#32 then some (.updenv (voiceField w)) else none := by
  have o := fun (m p : Word) (hm : m.extractLsb' 28 4 = 0xF#4) (hp : p.extractLsb' 28 4 ≠ 0xA#4) =>
    selects_other (w := w) hm (h ▸ hp)
  simp [decode, opcodeMap, List.find?_cons, Row.selects, o]
  split <;> simp_all

theorem decode_opB (h : w.extractLsb' 28 4 = 0xB#4) :
    decode w = if w &&& 0xF3FFFF00#32 = 0xB0000000#32 then some (.setshape (voiceField w) (imm8Field w)) else none := by
  have o := fun (m p : Word) (hm : m.extractLsb' 28 4 = 0xF#4) (hp : p.extractLsb' 28 4 ≠ 0xB#4) =>
    selects_other (w := w) hm (h ▸ hp)
  simp [decode, opcodeMap, List.find?_cons, Row.selects, o]
  split <;> simp_all

theorem decode_opD (h : w.extractLsb' 28 4 = 0xD#4) :
    decode w = if w &&& 0xF3FFFFFE#32 = 0xD0000000#32 then some (.setsync (voiceField w) (enField w)) else none := by
  have o := fun (m p : Word) (hm : m.extractLsb' 28 4 = 0xF#4) (hp : p.extractLsb' 28 4 ≠ 0xD#4) =>
    selects_other (w := w) hm (h ▸ hp)
  simp [decode, opcodeMap, List.find?_cons, Row.selects, o]
  split <;> simp_all

theorem decode_opE (h : w.extractLsb' 28 4 = 0xE#4) :
    decode w = if w &&& 0xF3FFFFFE#32 = 0xE0000000#32 then some (.setring (voiceField w) (enField w)) else none := by
  have o := fun (m p : Word) (hm : m.extractLsb' 28 4 = 0xF#4) (hp : p.extractLsb' 28 4 ≠ 0xE#4) =>
    selects_other (w := w) hm (h ▸ hp)
  simp [decode, opcodeMap, List.find?_cons, Row.selects, o]
  split <;> simp_all

theorem decode_opF (h : w.extractLsb' 28 4 = 0xF#4) :
    decode w = if w &&& 0xFFFFFF00#32 = 0xF0000000#32 then some (.setvol (imm8Field w)) else none := by
  have o := fun (m p : Word) (hm : m.extractLsb' 28 4 = 0xF#4) (hp : p.extractLsb' 28 4 ≠ 0xF#4) =>
    selects_other (w := w) hm (h ▸ hp)
  simp [decode, opcodeMap, List.find?_cons, Row.selects, o]
  split <;> simp_all

/-- Opcode 0xC has two rows: bit 0 chooses between VOICEON and VOICEOFF. -/
theorem decode_opC (h : w.extractLsb' 28 4 = 0xC#4) :
    decode w = if w &&& 0xF3FFFFFF#32 = 0xC0000001#32 then some (.voiceon (voiceField w))
      else if w &&& 0xF3FFFFFF#32 = 0xC0000000#32 then some (.voiceoff (voiceField w)) else none := by
  have o := fun (m p : Word) (hm : m.extractLsb' 28 4 = 0xF#4) (hp : p.extractLsb' 28 4 ≠ 0xC#4) =>
    selects_other (w := w) hm (h ▸ hp)
  simp [decode, opcodeMap, List.find?_cons, Row.selects, o]
  split <;> simp_all
  split <;> simp_all

end Opcodes

end Sys2Proof
end

