-- ==== Sys2Proof/Laws/State.lean ====
section
/-! SUPPORT. One lemma per field per update of the state, and the read-after-write laws of the mirror. -/

namespace Sys2Proof.Machine

section Updates

variable (s : State) (m : Mirror) (l : Lines) (p : Phase) (ws : List Word) (e : Event) (k : VoiceIx) (x : Voice) (f : Filter)

@[simp] theorem setMirror_mirror : (s.setMirror m).mirror = m := rfl
@[simp] theorem setMirror_lines : (s.setMirror m).lines = s.lines := rfl
@[simp] theorem setMirror_phase : (s.setMirror m).phase = s.phase := rfl
@[simp] theorem setMirror_fault : (s.setMirror m).fault = s.fault := rfl
@[simp] theorem setMirror_refused : (s.setMirror m).refused = s.refused := rfl
@[simp] theorem setMirror_trace : (s.setMirror m).trace = s.trace := rfl
@[simp] theorem setMirror_port : (s.setMirror m).port = s.port := rfl

@[simp] theorem setLines_mirror : (s.setLines l).mirror = s.mirror := rfl
@[simp] theorem setLines_lines : (s.setLines l).lines = l := rfl
@[simp] theorem setLines_phase : (s.setLines l).phase = s.phase := rfl
@[simp] theorem setLines_fault : (s.setLines l).fault = s.fault := rfl
@[simp] theorem setLines_refused : (s.setLines l).refused = s.refused := rfl
@[simp] theorem setLines_trace : (s.setLines l).trace = s.trace := rfl
@[simp] theorem setLines_port : (s.setLines l).port = s.port := rfl

@[simp] theorem setPhase_mirror : (s.setPhase p).mirror = s.mirror := rfl
@[simp] theorem setPhase_lines : (s.setPhase p).lines = s.lines := rfl
@[simp] theorem setPhase_phase : (s.setPhase p).phase = p := rfl
@[simp] theorem setPhase_fault : (s.setPhase p).fault = s.fault := rfl
@[simp] theorem setPhase_refused : (s.setPhase p).refused = s.refused := rfl
@[simp] theorem setPhase_trace : (s.setPhase p).trace = s.trace := rfl
@[simp] theorem setPhase_port : (s.setPhase p).port = s.port := rfl

@[simp] theorem setPort_mirror : (s.setPort ws).mirror = s.mirror := rfl
@[simp] theorem setPort_lines : (s.setPort ws).lines = s.lines := rfl
@[simp] theorem setPort_phase : (s.setPort ws).phase = s.phase := rfl
@[simp] theorem setPort_fault : (s.setPort ws).fault = s.fault := rfl
@[simp] theorem setPort_refused : (s.setPort ws).refused = s.refused := rfl
@[simp] theorem setPort_trace : (s.setPort ws).trace = s.trace := rfl
@[simp] theorem setPort_port : (s.setPort ws).port = ws := rfl

@[simp] theorem emit_mirror : (s.emit e).mirror = s.mirror := rfl
@[simp] theorem emit_lines : (s.emit e).lines = s.lines := rfl
@[simp] theorem emit_phase : (s.emit e).phase = s.phase := rfl
@[simp] theorem emit_fault : (s.emit e).fault = s.fault := rfl
@[simp] theorem emit_refused : (s.emit e).refused = s.refused := rfl
@[simp] theorem emit_trace : (s.emit e).trace = s.trace ++ [e] := rfl
@[simp] theorem emit_port : (s.emit e).port = s.port := rfl

@[simp] theorem setVoice_mirror : (s.setVoice k x).mirror = s.mirror.setVoice k x := rfl
@[simp] theorem setVoice_lines : (s.setVoice k x).lines = s.lines := rfl
@[simp] theorem setVoice_phase : (s.setVoice k x).phase = s.phase := rfl
@[simp] theorem setVoice_fault : (s.setVoice k x).fault = s.fault := rfl
@[simp] theorem setVoice_refused : (s.setVoice k x).refused = s.refused := rfl
@[simp] theorem setVoice_trace : (s.setVoice k x).trace = s.trace := rfl
@[simp] theorem setVoice_port : (s.setVoice k x).port = s.port := rfl

@[simp] theorem setFilter_mirror : (s.setFilter f).mirror = s.mirror.setFilter f := rfl
@[simp] theorem setFilter_lines : (s.setFilter f).lines = s.lines := rfl
@[simp] theorem setFilter_phase : (s.setFilter f).phase = s.phase := rfl
@[simp] theorem setFilter_fault : (s.setFilter f).fault = s.fault := rfl
@[simp] theorem setFilter_refused : (s.setFilter f).refused = s.refused := rfl
@[simp] theorem setFilter_trace : (s.setFilter f).trace = s.trace := rfl
@[simp] theorem setFilter_port : (s.setFilter f).port = s.port := rfl

end Updates

/-! The mirror: a voice reads back as stored, and a store leaves everything else alone. -/

section Mirror

variable (m : Mirror) (k j : VoiceIx) (x y : Voice) (f : Filter)

@[simp] theorem voice_setVoice_self : (m.setVoice k x).voice k = x := by cases k <;> rfl

theorem voice_setVoice : (m.setVoice k x).voice j = if j = k then x else m.voice j := by
  cases j <;> cases k <;> rfl

@[simp] theorem voice_setVoice_of_ne (h : j ≠ k) : (m.setVoice k x).voice j = m.voice j := by
  rw [voice_setVoice, if_neg h]

@[simp] theorem setVoice_voice_self : m.setVoice k (m.voice k) = m := by cases k <;> rfl

@[simp] theorem setVoice_setVoice : (m.setVoice k x).setVoice k y = m.setVoice k y := by cases k <;> rfl

@[simp] theorem mirror_setVoice_filter : (m.setVoice k x).filter = m.filter := by cases k <;> rfl

@[simp] theorem mirror_setVoice_misc : (m.setVoice k x).misc = m.misc := by cases k <;> rfl

@[simp] theorem mirror_setFilter_filter : (m.setFilter f).filter = f := rfl

@[simp] theorem mirror_setFilter_misc : (m.setFilter f).misc = m.misc := rfl

@[simp] theorem voice_setFilter : (m.setFilter f).voice k = m.voice k := by cases k <;> rfl

end Mirror

end Sys2Proof.Machine
end

