-- ==== Sys2Proof/Laws/Ops.lean ====
section
/-! SUPPORT. One lemma per shared operation that says everything it does. -/

namespace Sys2Proof.Machine

/-! ### The primitives -/

section Primitives

variable (s : State)

theorem driveA_eq (a : Addr) :
    driveA a s = { s with lines := { s.lines with a := some a }, trace := s.trace ++ [.a a] } := by
  simp [driveA, State.emit, State.setLines]

theorem driveD_eq (d : Byte) :
    driveD d s = { s with lines := { s.lines with d := some d }, trace := s.trace ++ [.d d] } := by
  simp [driveD, State.emit, State.setLines]

theorem driveRW_eq (l : Level) :
    driveRW l s = { s with lines := { s.lines with rw := some l }, trace := s.trace ++ [.rw l] } := rfl

theorem driveCS_eq (l : Level) :
    driveCS l s = { s with lines := { s.lines with cs := some l }, trace := s.trace ++ [.cs l] } := rfl

theorem driveRES_eq (l : Level) :
    driveRES l s = { s with lines := { s.lines with res := some l }, trace := s.trace ++ [.res l] } := rfl

theorem wait_eq (n : Nat) : wait n s = { s with trace := s.trace ++ [.wait n] } := rfl

theorem clockOn_eq :
    clockOn s = { s with lines := { s.lines with clk := .running }, trace := s.trace ++ [.clkOn] } := rfl

theorem latch_eq (a : Addr) (d : Byte) : latch a d s = { s with trace := s.trace ++ [.latch a d] } := rfl

end Primitives

/-! ### The write cycle and the push -/

section Push

variable (a : Addr) (d : Byte) (s : State)

@[simp] theorem pushed_mirror : (pushed a d s).mirror = s.mirror := rfl
@[simp] theorem pushed_lines :
    (pushed a d s).lines = { s.lines with a := some a, d := some d, rw := some .low, cs := some .high } := rfl
@[simp] theorem pushed_phase : (pushed a d s).phase = s.phase := rfl
@[simp] theorem pushed_fault : (pushed a d s).fault = s.fault := rfl
@[simp] theorem pushed_refused : (pushed a d s).refused = s.refused := rfl
@[simp] theorem pushed_trace : (pushed a d s).trace = s.trace ++ writeEvents a d := rfl
@[simp] theorem pushed_port : (pushed a d s).port = s.port := rfl

theorem strobe_eq :
    strobe a d s = { s with
      lines := { s.lines with rw := some .low, cs := some .high }
      trace := s.trace ++ cycleEvents a d } := by
  simp [strobe, driveCS_eq, driveRW_eq, wait_eq, latch_eq, cycleEvents, Config.setupWait, Config.strobeWait]

theorem busWrite_eq : busWrite a d s = pushed a d s := by
  simp [busWrite, strobe_eq, driveA_eq, driveD_eq, pushed, cycleEvents, writeEvents]

theorem commit_of_driven (ha : s.lines.a = some a) (hd : s.lines.d = some d) : commit s = .next (strobe a d s) := by
  simp [commit, ha, hd]

theorem commit_of_undriven (h : s.lines.a = none ∨ s.lines.d = none) : commit s = .fault .undrivenBus := by
  rcases h with h | h
  · simp [commit, raise, h]
  · cases ha : s.lines.a <;> simp [commit, raise, h, ha]

/-- R10: the register push is the two drives and then the body of BUSCOMMIT, which never faults there. -/
theorem commit_driveD_driveA : commit (driveD d (driveA a s)) = .next (busWrite a d s) :=
  commit_of_driven a d _ (by simp [driveD_eq, driveA_eq]) (by simp [driveD_eq])

end Push

/-! ### The reset pulse -/

theorem resetPulse_eq (s : State) :
    resetPulse s = { s with lines := { s.lines with res := some .high }, trace := s.trace ++ pulseEvents } := by
  simp [resetPulse, driveRES_eq, wait_eq, pulseEvents, Config.resetHighWait, Config.resetLowWait]

theorem readyIfClocked_eq (s : State) :
    readyIfClocked s = { s with phase := if s.lines.clk = .running then .ready else s.phase } := by
  cases h : s.lines.clk <;> simp [readyIfClocked, State.setPhase, h]

/-! ### The voice operand -/

@[simp] theorem selectVoice_field (k : VoiceIx) : selectVoice k.field = some k := by cases k <;> rfl

@[simp] theorem selectVoice_three : selectVoice 3#2 = none := rfl

theorem selectVoice_eq_some (v : VoiceField) (k : VoiceIx) : selectVoice v = some k ↔ v = k.field := by
  revert v; cases k <;> decide

theorem selectVoice_eq_none (v : VoiceField) : selectVoice v = none ↔ v = 3#2 := by
  revert v; decide

theorem field_toNat (k : VoiceIx) : k.field.toNat = k.index := by cases k <;> rfl

theorem toNat_eq_index (v : VoiceField) (k : VoiceIx) : v.toNat = k.index ↔ v = k.field := by
  revert v; cases k <;> decide

@[simp] theorem withVoice_field (k : VoiceIx) (s : State) (act : VoiceIx → State) :
    withVoice k.field s act = .next (act k) := by simp [withVoice]

@[simp] theorem withVoice_three (s : State) (act : VoiceIx → State) : withVoice 3#2 s act = .next s := rfl

/-- Everything a command with a voice operand can do: nothing, or its act on the selected voice. -/
theorem withVoice_cases {v : VoiceField} {s t : State} {act : VoiceIx → State} (h : withVoice v s act = .next t) :
    (v = 3#2 ∧ t = s) ∨ ∃ k : VoiceIx, v = k.field ∧ t = act k := by
  unfold withVoice at h
  split at h
  · exact .inl ⟨(selectVoice_eq_none v).1 ‹_›, by simpa using h.symm⟩
  · exact .inr ⟨_, (selectVoice_eq_some v _).1 ‹_›, by simpa using h.symm⟩

/-- A control-byte command in range stores its new byte and pushes it to the voice's CTL register. -/
theorem updateCtl_field (k : VoiceIx) (new : Byte → Byte) (s : State) :
    updateCtl k.field new s = .next (pushed (regAddr k .ctl) (new (s.mirror.voice k).ctl)
      (s.setVoice k { s.mirror.voice k with ctl := new (s.mirror.voice k).ctl })) := by
  simp [updateCtl, busWrite_eq]

theorem updateCtl_three (new : Byte → Byte) (s : State) : updateCtl 3#2 new s = .next s := rfl

/-! ### Operand bytes -/

/-- SETENV's packing is the two nibbles side by side (R33, R34). -/
theorem packNibbles_eq (hi lo : Nibble) : packNibbles hi lo = hi ++ lo := by
  revert hi lo; decide

theorem pulseHighByte_high_zero (w : Half) : pulseHighByte w &&& 0xF0#8 = 0#8 := by
  ext i hi
  interval_cases i <;> simp [pulseHighByte]

/-! ### Stopping and the port -/

@[simp] theorem record_next (s t : State) : record s (.next t) = t := rfl

theorem stopped_eq_none (s : State) : stopped s = none ↔ s.fault = none ∧ s.refused = false := by
  cases hf : s.fault <;> cases hr : s.refused <;> simp [stopped, hf, hr]

theorem takeWord_cons (s : State) (w : Word) (ws : List Word) (h : s.port = w :: ws) :
    takeWord s = some (w, s.setPort ws) := by simp [takeWord, h]

theorem takeWord_nil (s : State) (h : s.port = []) : takeWord s = none := by simp [takeWord, h]

end Sys2Proof.Machine
end

