-- ==== Sys2Proof/Laws/Exec.lean ====
section
/-! SUPPORT. Everything a command can do, said once: what it leaves is the mirror it wrote, the pushes it made, or one of
the engine's and the lifecycle's own changes. And everything a step can do. -/

namespace Sys2Proof.Machine

/-- The engine and lifecycle commands. -/
theorem exec_busaddr (a : Addr) (s : State) :
    exec (.busaddr a) s = .next { s with lines := { s.lines with a := some a }, trace := s.trace ++ [.a a] } := by
  simp [exec, execBusaddr, driveA_eq]

theorem exec_busdata (d : Byte) (s : State) :
    exec (.busdata d) s = .next { s with lines := { s.lines with d := some d }, trace := s.trace ++ [.d d] } := by
  simp [exec, execBusdata, driveD_eq]

theorem exec_buscommit (s : State) : exec .buscommit s = commit s := rfl

theorem exec_resetchip (s : State) :
    exec .resetchip s = .next { s with
      lines := { s.lines with res := some .high }
      phase := if s.lines.clk = .running then .ready else s.phase
      trace := s.trace ++ pulseEvents } := by
  simp [exec, execResetchip, resetPulse_eq, readyIfClocked_eq]

theorem exec_startclk (s : State) :
    exec .startclk s = .next { s with
      lines := { s.lines with res := some .high, clk := .running }
      phase := .ready
      trace := s.trace ++ .clkOn :: pulseEvents } := by
  simp [exec, execStartclk, resetPulse_eq, clockOn_eq, State.setPhase]

/-- Register pushes one after the other, oldest first. -/
def pushAll (ps : List (Addr × Byte)) (s : State) : State := ps.foldl (fun t p => pushed p.1 p.2 t) s

/-- BUSCOMMIT completes exactly when both the address and the data lines were driven. -/
theorem commit_cases {s t : State} (h : commit s = .next t) :
    ∃ a d, s.lines.a = some a ∧ s.lines.d = some d ∧ t = strobe a d s := by
  unfold commit at h
  split at h
  · exact ⟨_, _, ‹_›, ‹_›, by simpa using h.symm⟩
  · simp [raise] at h

section Facade

variable (k : VoiceIx) (s : State)

theorem exec_setfreq (f : Half) :
    exec (.setfreq k.field f) s = .next (s.setVoice k { s.mirror.voice k with freq := f }) := by
  simp [exec, execSetfreq]

theorem exec_updfreq :
    exec (.updfreq k.field) s = .next (pushed (regAddr k .fhi) (highByte (s.mirror.voice k).freq)
      (pushed (regAddr k .flo) (lowByte (s.mirror.voice k).freq) s)) := by
  simp [exec, execUpdfreq, busWrite_eq]

theorem exec_setpw (w : Half) :
    exec (.setpw k.field w) s = .next (pushed (regAddr k .phi) (pulseHighByte w)
      (pushed (regAddr k .plo) (lowByte w) (s.setVoice k { s.mirror.voice k with pw := w }))) := by
  simp [exec, execSetpw, busWrite_eq]

theorem exec_setenv (atk dec sus rel : Nibble) :
    exec (.setenv k.field atk dec sus rel) s = .next (s.setVoice k
      { s.mirror.voice k with ad := packNibbles atk dec, sr := packNibbles sus rel }) := by
  simp [exec, execSetenv]

theorem exec_updenv :
    exec (.updenv k.field) s = .next (pushed (regAddr k .sr) (s.mirror.voice k).sr
      (pushed (regAddr k .ad) (s.mirror.voice k).ad s)) := by
  simp [exec, execUpdenv, busWrite_eq]

theorem exec_setshape (m : Byte) : exec (.setshape k.field m) s = updateCtl k.field (shapeByte · m) s := rfl
theorem exec_voiceon : exec (.voiceon k.field) s = updateCtl k.field gateOn s := rfl
theorem exec_voiceoff : exec (.voiceoff k.field) s = updateCtl k.field gateOff s := rfl
theorem exec_setsync (en : Bool) : exec (.setsync k.field en) s = updateCtl k.field (syncByte en) s := rfl
theorem exec_setring (en : Bool) : exec (.setring k.field en) s = updateCtl k.field (ringByte en) s := rfl

theorem exec_setvol (x : Byte) :
    exec (.setvol x) s = .next (pushed mvolAddr (volumeByte s.mirror.filter.modeVol x)
      (s.setFilter { s.mirror.filter with modeVol := volumeByte s.mirror.filter.modeVol x })) := by
  simp [exec, execSetvol, busWrite_eq]

/-- What `facade_effect` says of a next state. -/
abbrev StoresAndPushes (i : Instr) (s t : State) : Prop :=
  ∃ (m : Mirror) (ps : List (Addr × Byte)), t = pushAll ps (s.setMirror m) ∧ ps.map Prod.fst = storeAddrs i s

/-- A control-byte command pushes once, to the voice's CTL register. -/
theorem updateCtl_effect {v : VoiceField} {new : Byte → Byte} {i : Instr} {s t : State}
    (hi : storeAddrs i s = voiceAddrs v [.ctl]) (h : updateCtl v new s = .next t) : StoresAndPushes i s t := by
  rcases withVoice_cases h with ⟨rfl, rfl⟩ | ⟨k, rfl, rfl⟩
  · exact ⟨_, [], rfl, by simp [hi, voiceAddrs]⟩
  · exact ⟨s.mirror.setVoice k { s.mirror.voice k with ctl := new (s.mirror.voice k).ctl },
      [(regAddr k .ctl, new (s.mirror.voice k).ctl)], busWrite_eq _ _ _, by simp [hi, voiceAddrs]⟩

/-- Everything a façade command can do: change the mirror, then push bytes to its store addresses, in their order. -/
theorem facade_effect {i : Instr} {s t : State} (hi : isFacade i = true) (h : exec i s = .next t) :
    StoresAndPushes i s t := by
  cases i with
  | busaddr _ | busdata _ | buscommit | resetchip | startclk => simp [isFacade] at hi
  | setfreq v f =>
    rcases withVoice_cases h with ⟨rfl, rfl⟩ | ⟨k, rfl, rfl⟩
    · exact ⟨t.mirror, [], rfl, rfl⟩
    · exact ⟨s.mirror.setVoice k { s.mirror.voice k with freq := f }, [], rfl, rfl⟩
  | updfreq v =>
    rcases withVoice_cases h with ⟨rfl, rfl⟩ | ⟨k, rfl, rfl⟩
    · exact ⟨t.mirror, [], rfl, rfl⟩
    · exact ⟨s.mirror, [(regAddr k .flo, lowByte (s.mirror.voice k).freq), (regAddr k .fhi, highByte (s.mirror.voice k).freq)],
        by simp only [busWrite_eq]; rfl, by simp [storeAddrs, voiceAddrs]⟩
  | setpw v w =>
    rcases withVoice_cases h with ⟨rfl, rfl⟩ | ⟨k, rfl, rfl⟩
    · exact ⟨t.mirror, [], rfl, rfl⟩
    · exact ⟨s.mirror.setVoice k { s.mirror.voice k with pw := w }, [(regAddr k .plo, lowByte w), (regAddr k .phi, pulseHighByte w)],
        by simp only [busWrite_eq]; rfl, by simp [storeAddrs, voiceAddrs]⟩
  | setenv v a d u r =>
    rcases withVoice_cases h with ⟨rfl, rfl⟩ | ⟨k, rfl, rfl⟩
    · exact ⟨t.mirror, [], rfl, rfl⟩
    · exact ⟨s.mirror.setVoice k { s.mirror.voice k with ad := packNibbles a d, sr := packNibbles u r }, [], rfl, rfl⟩
  | updenv v =>
    rcases withVoice_cases h with ⟨rfl, rfl⟩ | ⟨k, rfl, rfl⟩
    · exact ⟨t.mirror, [], rfl, rfl⟩
    · exact ⟨s.mirror, [(regAddr k .ad, (s.mirror.voice k).ad), (regAddr k .sr, (s.mirror.voice k).sr)],
        by simp only [busWrite_eq]; rfl, by simp [storeAddrs, voiceAddrs]⟩
  | setshape v m => exact updateCtl_effect (v := v) (new := (shapeByte · m)) rfl h
  | voiceon v => exact updateCtl_effect (v := v) (new := gateOn) rfl h
  | voiceoff v => exact updateCtl_effect (v := v) (new := gateOff) rfl h
  | setsync v en => exact updateCtl_effect (v := v) (new := (syncByte en)) rfl h
  | setring v en => exact updateCtl_effect (v := v) (new := (ringByte en)) rfl h
  | setvol x =>
    rw [exec_setvol] at h
    injection h with h
    subst h
    exact ⟨s.mirror.setFilter { s.mirror.filter with modeVol := volumeByte s.mirror.filter.modeVol x },
      [(mvolAddr, volumeByte s.mirror.filter.modeVol x)], rfl, rfl⟩

end Facade

/-! ### One step -/

/-- Everything a step that answers a next state can do: wait for a word, or perform the one it took. -/
theorem step_cases {s t : State} (h : step s = .next t) :
    s.fault = none ∧ s.refused = false ∧
      ((s.port = [] ∧ t = s) ∨
        ∃ w ws i, s.port = w :: ws ∧ decode w = some i ∧ exec i (s.setPort ws) = .next t) := by
  cases hs : stopped s with
  | some o =>
    exfalso
    rw [step, hs] at h
    cases hf : s.fault <;> cases hr : s.refused <;> simp_all [stopped, raise, refuse]
  | none =>
    obtain ⟨hf, hr⟩ := (stopped_eq_none s).1 hs
    refine ⟨hf, hr, ?_⟩
    rw [step, hs] at h
    cases hp : s.port with
    | nil => exact .inl ⟨rfl, by simpa [takeWord_nil s hp] using h.symm⟩
    | cons w ws =>
      simp only [takeWord_cons s w ws hp] at h
      cases hd : decode w with
      | none => simp [hd, refuse] at h
      | some i => exact .inr ⟨w, ws, i, rfl, hd, by simpa [hd] using h⟩

/-- Performing two sequences one after the other. -/
theorem execAll_append {is js : List Instr} {s t : State} (h : execAll is s = .next t) :
    execAll (is ++ js) s = execAll js t := by
  induction is generalizing s with
  | nil => simp_all [execAll]
  | cons i is ih =>
    simp only [List.cons_append, execAll] at h ⊢
    split at h <;> simp_all

end Sys2Proof.Machine
end

