-- ==== Sys2Proof/Laws/Observe.lean ====
section
/-! SUPPORT. How each observation reads a trace with one more event, or one more push, at its end. -/

namespace Sys2Proof.Machine

@[simp] theorem latches_append (t u : List Event) : latches (t ++ u) = latches t ++ latches u := by
  simp [latches]

theorem latches_cons_of_none {e : Event} (h : e.latched? = none) (t : List Event) : latches (e :: t) = latches t := by
  simp [latches, h]

@[simp] theorem latches_cons_latch (a : Addr) (d : Byte) (t : List Event) :
    latches (.latch a d :: t) = (a, d) :: latches t := rfl

@[simp] theorem latches_writeEvents (a : Addr) (d : Byte) : latches (writeEvents a d) = [(a, d)] := rfl
@[simp] theorem latches_cycleEvents (a : Addr) (d : Byte) : latches (cycleEvents a d) = [(a, d)] := rfl
@[simp] theorem latches_pulseEvents : latches pulseEvents = [] := rfl

@[simp] theorem waitCycles_append (t u : List Event) : waitCycles (t ++ u) = waitCycles t + waitCycles u := by
  simp [waitCycles]

@[simp] theorem waitCycles_writeEvents (a : Addr) (d : Byte) : waitCycles (writeEvents a d) = 2 := rfl
@[simp] theorem waitCycles_cycleEvents (a : Addr) (d : Byte) : waitCycles (cycleEvents a d) = 2 := rfl
@[simp] theorem waitCycles_pulseEvents : waitCycles pulseEvents = 12 := rfl

theorem replay_append (t u : List Event) : replay (t ++ u) = u.foldl Lines.after (replay t) := by
  simp [replay]

/-! ### The chip view, one event at a time -/

theorem afterLastReset_snoc (t : List Event) (e : Event) :
    afterLastReset (t ++ [e]) = if e = .res .low then [] else afterLastReset t ++ [e] := by
  by_cases h : e = .res .low <;> simp [afterLastReset, h]

/-- The chip view after a LATCH: the latched byte at its address, as before elsewhere (R66). -/
theorem chipView_snoc_latch (img : Addr → Byte) (t : List Event) (x : Addr) (y : Byte) (a : Addr) :
    chipView img (t ++ [.latch x y]) a = if x = a then some y else chipView img t a := by
  by_cases h : x = a <;> simp [chipView, afterLastReset_snoc, Event.latchedAt?, h]

/-- The chip view after RES(LOW): the post-reset image everywhere (R66). -/
theorem chipView_snoc_resLow (img : Addr → Byte) (t : List Event) (a : Addr) :
    chipView img (t ++ [.res .low]) a = some (img a) := by
  simp [chipView, afterLastReset_snoc]

/-- No other event changes the chip view. -/
theorem chipView_snoc_other (img : Addr → Byte) (t : List Event) (e : Event) (a : Addr) (hr : e ≠ .res .low)
    (hl : e.latchedAt? a = none) : chipView img (t ++ [e]) a = chipView img t a := by
  simp [chipView, afterLastReset_snoc, hr, hl, Ne.symm hr]

/-- The chip view after a write cycle. -/
theorem chipView_cycleEvents (img : Addr → Byte) (t : List Event) (x : Addr) (y : Byte) (a : Addr) :
    chipView img (t ++ cycleEvents x y) a = if x = a then some y else chipView img t a := by
  have e : t ++ cycleEvents x y =
      (((((t ++ [.wait 1]) ++ [.rw .low]) ++ [.cs .low]) ++ [.wait 1]) ++ [.latch x y]) ++ [.cs .high] := by
    simp [cycleEvents]
  rw [e]
  repeat rw [chipView_snoc_other _ _ _ _ (by simp) rfl]
  rw [chipView_snoc_latch]
  repeat rw [chipView_snoc_other _ _ _ _ (by simp) rfl]

/-- The chip view after a register push. -/
theorem chipView_writeEvents (img : Addr → Byte) (t : List Event) (x : Addr) (y : Byte) (a : Addr) :
    chipView img (t ++ writeEvents x y) a = if x = a then some y else chipView img t a := by
  have e : t ++ writeEvents x y = ((t ++ [.a x]) ++ [.d y]) ++ cycleEvents x y := by simp [writeEvents, cycleEvents]
  rw [e, chipView_cycleEvents]
  repeat rw [chipView_snoc_other _ _ _ _ (by simp) rfl]

/-- The chip view after a register push, read off the state. -/
theorem chipView_pushed (img : Addr → Byte) (s : State) (x : Addr) (y : Byte) (a : Addr) :
    chipView img (pushed x y s).trace a = if x = a then some y else chipView img s.trace a :=
  chipView_writeEvents img s.trace x y a

/-- The chip view after a reset pulse. -/
theorem chipView_pulseEvents (img : Addr → Byte) (t : List Event) (a : Addr) :
    chipView img (t ++ pulseEvents) a = some (img a) := by
  have e : t ++ pulseEvents = ((((t ++ [.res .high]) ++ [.wait 2]) ++ [.res .low]) ++ [.wait 10]) ++ [.res .high] := by
    simp [pulseEvents]
  rw [e, chipView_snoc_other _ _ _ _ (by simp) rfl, chipView_snoc_other _ _ _ _ (by simp) rfl, chipView_snoc_resLow]

end Sys2Proof.Machine
end

