-- ==== Sys2Proof/Laws/PerInstr.lean ====
section
/-! SUPPORT. Statements made of every command, one lemma per constructor. -/

namespace Sys2Proof.Laws.EncodesWellFormed

/-- The word of a command has a used opcode and zeros in every must-be-zero bit of its format (R81, R85). -/
def Statement (i : Instr) : Prop := WellFormed (encode i) = true

/-- The opcode of a word, read off its encoding, and then the must-be-zero bits of that opcode's format. -/
theorem of_op {w : Word} (op : BitVec 4) (h : w.extractLsb' 28 4 = op) (h0 : op ≠ 0#4)
    (hz : w &&& mustBeZero op = 0#32) : WellFormed w = true := by
  simp [WellFormed, h, h0, hz]

theorem busaddr (a : Addr) : Statement (.busaddr a) :=
  of_op 0x1#4 (by ext i hi; interval_cases i <;> simp [encode, put]) (by decide)
    (by ext i hi; interval_cases i <;> simp [encode, put, mustBeZero])

theorem busdata (d : Byte) : Statement (.busdata d) :=
  of_op 0x2#4 (by ext i hi; interval_cases i <;> simp [encode, put]) (by decide)
    (by ext i hi; interval_cases i <;> simp [encode, put, mustBeZero])

theorem buscommit : Statement .buscommit :=
  of_op 0x3#4 (by decide) (by decide) (by decide)

theorem resetchip : Statement .resetchip :=
  of_op 0x4#4 (by decide) (by decide) (by decide)

theorem startclk : Statement .startclk :=
  of_op 0x5#4 (by decide) (by decide) (by decide)

theorem setfreq (v : VoiceField) (f : Half) : Statement (.setfreq v f) :=
  of_op 0x6#4 (by ext i hi; interval_cases i <;> simp [encode, put]) (by decide)
    (by ext i hi; interval_cases i <;> simp [encode, put, mustBeZero])

theorem updfreq (v : VoiceField) : Statement (.updfreq v) :=
  of_op 0x7#4 (by ext i hi; interval_cases i <;> simp [encode, put]) (by decide)
    (by ext i hi; interval_cases i <;> simp [encode, put, mustBeZero])

theorem setpw (v : VoiceField) (w : Half) : Statement (.setpw v w) :=
  of_op 0x8#4 (by ext i hi; interval_cases i <;> simp [encode, put]) (by decide)
    (by ext i hi; interval_cases i <;> simp [encode, put, mustBeZero])

theorem setenv (v : VoiceField) (atk : Nibble) (dec : Nibble) (sus : Nibble) (rel : Nibble) : Statement (.setenv v atk dec sus rel) :=
  of_op 0x9#4 (by ext i hi; interval_cases i <;> simp [encode, put]) (by decide)
    (by ext i hi; interval_cases i <;> simp [encode, put, mustBeZero])

theorem updenv (v : VoiceField) : Statement (.updenv v) :=
  of_op 0xA#4 (by ext i hi; interval_cases i <;> simp [encode, put]) (by decide)
    (by ext i hi; interval_cases i <;> simp [encode, put, mustBeZero])

theorem setshape (v : VoiceField) (m : Byte) : Statement (.setshape v m) :=
  of_op 0xB#4 (by ext i hi; interval_cases i <;> simp [encode, put]) (by decide)
    (by ext i hi; interval_cases i <;> simp [encode, put, mustBeZero])

theorem voiceon (v : VoiceField) : Statement (.voiceon v) :=
  of_op 0xC#4 (by ext i hi; interval_cases i <;> simp [encode, put]) (by decide)
    (by ext i hi; interval_cases i <;> simp [encode, put, mustBeZero])

theorem voiceoff (v : VoiceField) : Statement (.voiceoff v) :=
  of_op 0xC#4 (by ext i hi; interval_cases i <;> simp [encode, put]) (by decide)
    (by ext i hi; interval_cases i <;> simp [encode, put, mustBeZero])

theorem setsync (v : VoiceField) (en : Bool) : Statement (.setsync v en) :=
  of_op 0xD#4 (by ext i hi; interval_cases i <;> simp [encode, put]) (by decide)
    (by ext i hi; interval_cases i <;> simp [encode, put, mustBeZero])

theorem setring (v : VoiceField) (en : Bool) : Statement (.setring v en) :=
  of_op 0xE#4 (by ext i hi; interval_cases i <;> simp [encode, put]) (by decide)
    (by ext i hi; interval_cases i <;> simp [encode, put, mustBeZero])

theorem setvol (x : Byte) : Statement (.setvol x) :=
  of_op 0xF#4 (by ext i hi; interval_cases i <;> simp [encode, put]) (by decide)
    (by ext i hi; interval_cases i <;> simp [encode, put, mustBeZero])

end Sys2Proof.Laws.EncodesWellFormed
end

