-- ==== Sys2Proof/Tests/Slice0.lean ====
section
/-! SUPPORT. Tests: decoding of words written out from the spec's encodings, refusal of ill-formed words, one small test of
each command, and a witness for the hypotheses of each statement. Expected values are those of R92, of the rules' own
examples and of 95_test_vectors.md. -/

namespace Sys2Proof.Machine.Tests

/-! ### Decoding: words written out field by field from R81 -/

theorem test_decode_busaddr : decode 0b0001_00000000000000000000000_11000#32 = some (.busaddr 24#5) := by decide
theorem test_decode_busdata : decode 0b0010_00000000000000000000_00001111#32 = some (.busdata 0x0F#8) := by decide
theorem test_decode_buscommit : decode 0b0011_0000000000000000000000000000#32 = some .buscommit := by decide
theorem test_decode_resetchip : decode 0b0100_0000000000000000000000000000#32 = some .resetchip := by decide
theorem test_decode_startclk : decode 0b0101_0000000000000000000000000000#32 = some .startclk := by decide
theorem test_decode_setfreq :
    decode 0b0110_10_0000000000_0001001000110100#32 = some (.setfreq 2#2 0x1234#16) := by decide
theorem test_decode_updfreq : decode 0b0111_01_00000000000000000000000000#32 = some (.updfreq 1#2) := by decide
theorem test_decode_setpw :
    decode 0b1000_01_0000000000_0001101010111100#32 = some (.setpw 1#2 0x1ABC#16) := by decide
theorem test_decode_setenv :
    decode 0b1001_10_0000000000_1010_0101_1100_0011#32 = some (.setenv 2#2 10#4 5#4 12#4 3#4) := by decide
theorem test_decode_updenv : decode 0b1010_10_00000000000000000000000000#32 = some (.updenv 2#2) := by decide
theorem test_decode_setshape :
    decode 0b1011_00_000000000000000000_01000000#32 = some (.setshape 0#2 0x40#8) := by decide
theorem test_decode_voiceon : decode 0b1100_00_0000000000000000000000000_1#32 = some (.voiceon 0#2) := by decide
theorem test_decode_voiceoff : decode 0b1100_11_0000000000000000000000000_0#32 = some (.voiceoff 3#2) := by decide
theorem test_decode_setsync : decode 0b1101_01_0000000000000000000000000_1#32 = some (.setsync 1#2 true) := by decide
theorem test_decode_setring : decode 0b1110_10_0000000000000000000000000_0#32 = some (.setring 2#2 false) := by decide
theorem test_decode_setvol : decode 0b1111_00000000000000000000_00001111#32 = some (.setvol 0x0F#8) := by decide

/-- The reserved words of the decode vectors (95_test_vectors.md 2.1) and of R92. -/
theorem test_decode_reserved :
    [0x00000000#32, 0x0FFFFFFF#32, 0x10000020#32, 0x14000000#32, 0x30000001#32, 0x34000000#32, 0x60010000#32,
      0x70000001#32, 0xC0000002#32, 0xE0000003#32, 0xF4000000#32].all (fun w => decode w == none) = true := by decide

/-- R92: the spec's words of these commands. -/
theorem test_encode :
    encode (.setpw 1#2 0x1ABC#16) = 0x84001ABC#32 ∧ encode (.setenv 0#2 1#4 2#4 3#4 4#4) = 0x90001234#32 ∧
    encode (.voiceon 0#2) = 0xC0000001#32 ∧ encode (.setsync 1#2 true) = 0xD4000001#32 := by decide

theorem test_decodeTableWord :
    decodeTableWord 32 0xF000000F = some (.setvol 15#8) ∧ decodeTableWord 33 0xF000000F = none := by decide

/-! ### Well-formedness: one ill-formed word for each check, each format's must-be-zero bits at both their ends -/

theorem smoke_wellFormed_opcode_zero : WellFormed 0x00000000#32 = false := by decide
theorem smoke_wellFormed_formatA : WellFormed 0x10000020#32 = false ∧ WellFormed 0x18000000#32 = false := by decide
theorem smoke_wellFormed_formatB : WellFormed 0x20000100#32 = false ∧ WellFormed 0xF8000000#32 = false := by decide
theorem smoke_wellFormed_formatN : WellFormed 0x30000001#32 = false ∧ WellFormed 0x58000000#32 = false := by decide
theorem smoke_wellFormed_formatVH : WellFormed 0x60010000#32 = false ∧ WellFormed 0x82000000#32 = false := by decide
theorem smoke_wellFormed_formatVE : WellFormed 0x90010000#32 = false ∧ WellFormed 0x92000000#32 = false := by decide
theorem smoke_wellFormed_formatV : WellFormed 0x70000001#32 = false ∧ WellFormed 0xA2000000#32 = false := by decide
theorem smoke_wellFormed_formatVB : WellFormed 0xB0000100#32 = false ∧ WellFormed 0xB2000000#32 = false := by decide
theorem smoke_wellFormed_formatVG : WellFormed 0xC0000002#32 = false ∧ WellFormed 0xC2000000#32 = false := by decide
theorem smoke_wellFormed_formatVF : WellFormed 0xD0000002#32 = false ∧ WellFormed 0xE2000000#32 = false := by decide
theorem smoke_wellFormed_accepts : WellFormed 0x6C00FFFF#32 = true ∧ WellFormed 0xC0000001#32 = true := by decide

/-- Operands outside the ranges of R89 are refused by the assembler. -/
theorem smoke_assemble_ranges :
    [assemble .busaddr [32], assemble .busdata [256], assemble .setfreq [4, 0], assemble .setpw [0, 65536],
      assemble .setenv [0, 16, 0, 0, 0], assemble .setsync [0, 2], assemble .setvol [256], assemble .buscommit [0]].all
      (· == none) = true := by decide

theorem test_assemble :
    assemble .setshape [2, 0x1F] = some [.setshape 2#2 0x1F#8] ∧
    assemble .write [24, 10] = some [.busaddr 24#5, .busdata 10#8, .buscommit] := by decide

/-! ### Small states -/

/-- Block reset with one voice's record set. -/
def withRecord (k : VoiceIx) (x : Voice) : State := State.reset.setVoice k x

/-- Block reset with one voice's control byte set. -/
def withCtl (k : VoiceIx) (c : Byte) : State := withRecord k { Voice.zero with ctl := c }

/-- Block reset with the address and the data lines driven. -/
def withPair (a : Addr) (d : Byte) : State := State.reset.setLines { Lines.undriven with a := some a, d := some d }

/-- The state STARTCLK leaves from block reset (R112's example). -/
def booted : State :=
  { State.reset with
    lines := { Lines.undriven with res := some .high, clk := .running }
    phase := .ready
    trace := [.clkOn, .res .high, .wait 2, .res .low, .wait 10, .res .high] }

/-- What a test looks at after one command. -/
def look {α : Type} (i : Instr) (s : State) (f : State → α) : Option α := (next? (exec i s)).map f

/-! ### One or two tests of each command -/

theorem test_busaddr : look (.busaddr 9#5) .reset (fun t => (t.lines.a, t.trace)) = some (some 9#5, [.a 9#5]) := by decide
theorem test_busdata :
    look (.busdata 0xBC#8) .reset (fun t => (t.lines.d, t.trace)) = some (some 0xBC#8, [.d 0xBC#8]) := by decide
theorem test_buscommit :
    look .buscommit (withPair 24#5 0x0F#8) (fun t => (t.trace, t.lines.rw, t.lines.cs)) =
      some ([.wait 1, .rw .low, .cs .low, .wait 1, .latch 24#5 0x0F#8, .cs .high], some .low, some .high) := by decide
theorem test_buscommit_undriven :
    record .reset (exec .buscommit .reset) = { State.reset with fault := some .undrivenBus } := by decide
theorem test_resetchip :
    look .resetchip .reset (fun t => (t.phase, t.lines.res, t.trace)) =
      some (.unpowered, some .high, [.res .high, .wait 2, .res .low, .wait 10, .res .high]) := by decide
theorem test_resetchip_clocked : look .resetchip (booted.setPhase .unpowered) State.phase = some .ready := by decide
theorem test_startclk : next? (exec .startclk .reset) = some booted := by decide
theorem test_setfreq :
    look (.setfreq 0#2 0x1234#16) .reset (fun t => (t.mirror.v0.freq, t.trace)) = some (0x1234#16, []) := by decide
theorem test_updfreq :
    look (.updfreq 2#2) (withRecord .two { Voice.zero with freq := 0x1234#16 }) (fun t => latches t.trace) =
      some [(14#5, 0x34#8), (15#5, 0x12#8)] := by decide
theorem test_setpw :
    look (.setpw 1#2 0x1ABC#16) .reset (fun t => (t.mirror.v1.pw, latches t.trace)) =
      some (0x1ABC#16, [(9#5, 0xBC#8), (10#5, 0x0A#8)]) := by decide
theorem test_setenv :
    look (.setenv 2#2 10#4 5#4 12#4 3#4) .reset (fun t => (t.mirror.v2.ad, t.mirror.v2.sr, t.trace)) =
      some (0xA5#8, 0xC3#8, []) := by decide
theorem test_updenv :
    look (.updenv 1#2) (withRecord .one { Voice.zero with ad := 0xF0#8, sr := 0x0F#8 }) (fun t => latches t.trace) =
      some [(12#5, 0xF0#8), (13#5, 0x0F#8)] := by decide
theorem test_setshape_ignores_low_nibble :
    look (.setshape 1#2 0xFF#8) (withCtl .one 0x01#8) (fun t => (t.mirror.v1.ctl, latches t.trace)) =
      some (0xF1#8, [(11#5, 0xF1#8)]) := by decide
theorem test_voiceon :
    look (.voiceon 1#2) (withCtl .one 0x20#8) (fun t => (t.mirror.v1.ctl, latches t.trace)) =
      some (0x21#8, [(11#5, 0x21#8)]) := by decide
theorem test_voiceoff :
    look (.voiceoff 1#2) (withCtl .one 0x21#8) (fun t => (t.mirror.v1.ctl, latches t.trace)) =
      some (0x20#8, [(11#5, 0x20#8)]) := by decide
theorem test_setsync_twice :
    look (.setsync 0#2 true) (withCtl .zero 0x43#8) (fun t => (t.mirror.v0.ctl, latches t.trace)) =
      some (0x43#8, [(4#5, 0x43#8)]) := by decide
theorem test_setsync_off : look (.setsync 0#2 false) (withCtl .zero 0x12#8) (·.mirror.v0.ctl) = some 0x10#8 := by decide
theorem test_setring :
    look (.setring 2#2 true) (withCtl .two 0x10#8) (fun t => (t.mirror.v2.ctl, latches t.trace)) =
      some (0x14#8, [(18#5, 0x14#8)]) := by decide
theorem test_setring_off : look (.setring 1#2 false) (withCtl .one 0x05#8) (·.mirror.v1.ctl) = some 0x01#8 := by decide
theorem test_setvol_masks :
    look (.setvol 0x10#8) .reset (fun t => (t.mirror.filter.modeVol, latches t.trace)) =
      some (0x00#8, [(24#5, 0x00#8)]) := by decide
theorem test_setvol_keeps_high_nibble :
    look (.setvol 0xFF#8) (State.reset.setFilter ⟨0, 0, 0xA3#8⟩) (·.mirror.filter.modeVol) = some 0xAF#8 := by decide
theorem test_out_of_range_voice : next? (exec (.setring 3#2 true) booted) = some booted := by decide

/-! ### Steps -/

theorem test_step_runs : next? (step (State.reset.withFetchWord 32 0x50000000)) = some booted := by decide
theorem test_step_refuses :
    advance (State.reset.withFetchWord 32 0) = { State.reset with refused := true, port := [0#32] } := by decide
theorem test_step_waits : next? (step State.reset) = some State.reset := by decide
theorem test_chipView_after_startclk : chipView (fun _ => 0x55#8) booted.trace 31#5 = some 0x55#8 := by decide
theorem test_leastTime_after_startclk : minDuration 3 booted.trace = 36 := by decide

/-! ### Witnesses: for each statement with hypotheses, values that meet them (clause by clause where there are several) -/

theorem witness_EncodeDecodeRoundTrip : decode 0xFC000000#32 = none ∧ decode 0xF00000FF#32 = some (.setvol 0xFF#8) := by
  decide
theorem witness_OpcodeMapRowsAreDisjoint : opcodeMap.any (fun r => 0xCC000001#32 &&& r.mask == r.pattern) = true := by decide
theorem witness_ReservedWordsAreRefused :
    Unmarked (booted.setPort [0x34000000#32]) ∧ (booted.setPort [0x34000000#32]).port = [0x34000000#32] ∧
    decode 0x34000000#32 = none := by decide
theorem witness_StepPerformsTheDecodedCommand :
    Unmarked (booted.setPort [0x30000000#32]) ∧ decode 0x30000000#32 = some .buscommit ∧
    Unmarked booted ∧ decodeTableWord 32 0xFFFFFFFF = none ∧ decodeTableWord 32 0xF00000FF = some (.setvol 0xFF#8) := by
  decide
theorem witness_BlockWaitsForAWord : Unmarked booted ∧ booted.port = [] := by decide
theorem witness_MarkedStateTakesNoFurtherStep :
    ¬Unmarked { booted with refused := true } ∧ ¬Unmarked { booted with fault := some .undrivenBus } := by decide
theorem witness_CommandsKeepMarksAndPort : ∃ t, exec .buscommit (withPair 31#5 0#8) = .next t := ⟨_, rfl⟩
theorem witness_BusaddrDrivesTheAddressLines :
    (0x1000001F#32).extractLsb' 28 4 = 0x1#4 ∧ (0x1000001F#32).extractLsb' 5 23 = 0#23 := by decide
theorem witness_BusdataDrivesTheDataLines :
    (0x200000FF#32).extractLsb' 28 4 = 0x2#4 ∧ (0x200000FF#32).extractLsb' 8 20 = 0#20 := by decide
theorem witness_BuscommitIsOneWriteCycle :
    (withPair 31#5 0xFF#8).lines.a = some 31#5 ∧ (withPair 31#5 0xFF#8).lines.d = some 0xFF#8 ∧
    (booted.lines.a = none ∨ booted.lines.d = none) := by decide
theorem witness_OutOfRangeVoiceIsANoOp :
    voiceOperand (.updfreq 3#2) = some 3#2 ∧ voiceOperand (.setsync 3#2 true) = some 3#2 := by decide
/-- The hypothesis on a voice field and its voice, at both ends of its range. -/
theorem witness_voice_operand : (0#2).toNat = VoiceIx.zero.index ∧ (2#2).toNat = VoiceIx.two.index := by decide
theorem witness_SetfreqStoresTheFrequency :
    (0x6C00FFFF#32).extractLsb' 28 4 = 0x6#4 ∧ (0x6C00FFFF#32).extractLsb' 16 10 = 0#10 ∧
    (2#2).toNat = VoiceIx.two.index := by decide
theorem witness_UpdfreqPushesLowThenHigh :
    (0x7C000000#32).extractLsb' 28 4 = 0x7#4 ∧ (0x7C000000#32).extractLsb' 0 26 = 0#26 ∧
    (0#2).toNat = VoiceIx.zero.index := by decide
theorem witness_SetpwStoresSixteenAndPushesTwelve :
    (0x8C00FFFF#32).extractLsb' 28 4 = 0x8#4 ∧ (0x8C00FFFF#32).extractLsb' 16 10 = 0#10 ∧
    (2#2).toNat = VoiceIx.two.index := by decide
theorem witness_SetenvPacksTheNibbles :
    (0x9C00FFFF#32).extractLsb' 28 4 = 0x9#4 ∧ (0x9C00FFFF#32).extractLsb' 16 10 = 0#10 ∧
    (2#2).toNat = VoiceIx.two.index := by decide
theorem witness_UpdenvPushesAdThenSr :
    (0xAC000000#32).extractLsb' 28 4 = 0xA#4 ∧ (0xAC000000#32).extractLsb' 0 26 = 0#26 ∧
    (0#2).toNat = VoiceIx.zero.index := by decide
theorem witness_SetshapeReplacesTheWaveformBits :
    (0xBC0000FF#32).extractLsb' 28 4 = 0xB#4 ∧ (0xBC0000FF#32).extractLsb' 8 18 = 0#18 ∧
    (2#2).toNat = VoiceIx.two.index ∧
    0xF1#8 = (((withCtl .two 0x01#8).mirror.voice .two).ctl &&& 0x0F#8) ||| (0xFF#8 &&& 0xF0#8) := by decide
theorem witness_VoiceonSetsTheGate :
    (0xCC000001#32).extractLsb' 28 4 = 0xC#4 ∧ (0xCC000001#32).extractLsb' 1 25 = 0#25 ∧
    (0xCC000001#32).extractLsb' 0 1 = 1#1 ∧ (1#2).toNat = VoiceIx.one.index ∧
    0x21#8 = ((withCtl .one 0x20#8).mirror.voice .one).ctl ||| 0x01#8 := by decide
theorem witness_VoiceoffClearsTheGate :
    (0xCC000000#32).extractLsb' 28 4 = 0xC#4 ∧ (0xCC000000#32).extractLsb' 1 25 = 0#25 ∧
    (0xCC000000#32).extractLsb' 0 1 = 0#1 ∧ (1#2).toNat = VoiceIx.one.index ∧
    0x20#8 = ((withCtl .one 0x21#8).mirror.voice .one).ctl &&& 0xFE#8 := by decide
theorem witness_SetsyncWritesTheSyncBit :
    (0xDC000001#32).extractLsb' 28 4 = 0xD#4 ∧ (0xDC000001#32).extractLsb' 1 25 = 0#25 ∧
    (0#2).toNat = VoiceIx.zero.index ∧
    0x43#8 = (if true then (((withCtl .zero 0x41#8).mirror.voice .zero).ctl &&& 0xFD#8) ||| 0x02#8
      else ((withCtl .zero 0x41#8).mirror.voice .zero).ctl &&& 0xFD#8) := by decide
theorem witness_SetringWritesTheRingBit :
    (0xEC000001#32).extractLsb' 28 4 = 0xE#4 ∧ (0xEC000001#32).extractLsb' 1 25 = 0#25 ∧
    (2#2).toNat = VoiceIx.two.index ∧
    0x10#8 = (if false then (((withCtl .two 0x14#8).mirror.voice .two).ctl &&& 0xFB#8) ||| 0x04#8
      else ((withCtl .two 0x14#8).mirror.voice .two).ctl &&& 0xFB#8) := by decide
theorem witness_SetvolReplacesTheVolumeNibble :
    (0xF00000FF#32).extractLsb' 28 4 = 0xF#4 ∧ (0xF00000FF#32).extractLsb' 8 20 = 0#20 ∧
    0x0F#8 = (booted.mirror.filter.modeVol &&& 0xF0#8) ||| (0xFF#8 &&& 0x0F#8) := by decide
theorem witness_AddingAClearBitIsOr : 7 < 8 ∧ (0x7F#8).getLsbD 7 = false ∧ (0xFE#8).getLsbD 0 = false := by decide
/-- One state in which each command of `MirrorFieldsHaveTheirWriters` changes its field. -/
theorem witness_MirrorFieldsHaveTheirWriters :
    look (.setfreq 2#2 1#16) booted (·.mirror.v2.freq != booted.mirror.v2.freq) = some true ∧
    look (.setpw 2#2 1#16) booted (·.mirror.v2.pw != booted.mirror.v2.pw) = some true ∧
    look (.voiceon 0#2) booted (·.mirror.v0.ctl != booted.mirror.v0.ctl) = some true ∧
    look (.setenv 0#2 1#4 0#4 0#4 0#4) booted (·.mirror.v0.ad != booted.mirror.v0.ad) = some true ∧
    look (.setvol 1#8) booted (·.mirror.filter.modeVol != booted.mirror.filter.modeVol) = some true := by decide
theorem witness_LifecycleLeavesMirrorAndBus : ∃ i : Instr, i = .resetchip ∨ i = .startclk := ⟨.startclk, .inr rfl⟩
theorem witness_LifecycleStateMachine :
    (∃ t, exec .startclk booted = .next t) ∧ booted.phase = .ready ∧
    Instr.setvol 0#8 ≠ .startclk ∧ Instr.setvol 0#8 ≠ .resetchip ∧ ∃ t, exec (.setvol 0#8) booted = .next t :=
  ⟨⟨_, rfl⟩, rfl, by decide, by decide, _, rfl⟩
theorem witness_ClockRunsOnceStarted :
    (∃ t, exec (.setvol 0#8) booted = .next t) ∧ clockFrequency 7 booted = some 7 ∧
    clockFrequency 7 State.reset = none ∧ Instr.resetchip ≠ .startclk := ⟨⟨_, rfl⟩, rfl, rfl, by decide⟩
theorem witness_TraceGrowsAndIsNotRead : ∃ t, exec (.updfreq 2#2) booted = .next t := ⟨_, rfl⟩
theorem witness_SequencesKeepControlBitRanges :
    (2#2).toNat = VoiceIx.two.index ∧ (∃ t, execAll [.setvol 3#8, .setshape 0#2 0x10#8, .voiceon 1#2] booted = .next t) ∧
    (∀ m, Instr.setshape 2#2 m ∉ [.setvol 3#8, .setshape 0#2 0x10#8, .voiceon 1#2]) ∧
    Instr.voiceon 2#2 ∉ [.setvol 3#8, .setshape 0#2 0x10#8, .voiceon 1#2] ∧
    Instr.voiceoff 2#2 ∉ [.setvol 3#8, .setshape 0#2 0x10#8, .voiceon 1#2] ∧
    (∀ en, Instr.setsync 2#2 en ∉ [.setvol 3#8, .setshape 0#2 0x10#8, .voiceon 1#2]) ∧
    ∀ en, Instr.setring 2#2 en ∉ [.setvol 3#8, .setshape 0#2 0x10#8, .voiceon 1#2] :=
  ⟨rfl, ⟨_, rfl⟩, by simp, by simp, by simp, by simp, by simp⟩
theorem witness_CommandsWaitTheirBusCycles : ∃ t, exec (.setpw 2#2 0#16) booted = .next t := ⟨_, rfl⟩
theorem witness_invariants_of_step :
    AlwaysZeroBits booted.mirror ∧ LinesReplayTrace booted ∧ BusAtRest booted ∧ PhaseFollowsClock booted ∧
    (next? (step (booted.setPort [0xF000000F#32]))).isSome := by decide
theorem witness_ReachableStatesMeetTheInvariants :
    booted.setPort [] = advanceN 1 (present [0x50000000#32] State.reset) := by decide
theorem witness_RegisterWritesGoToTheStoreAddresses :
    (∃ t, exec (.updenv 2#2) booted = .next t) ∧ isFacade (.updenv 2#2) ∧ 20#5 ∈ storeAddrs (.updenv 2#2) booted :=
  ⟨⟨_, rfl⟩, rfl, by decide⟩
theorem witness_ChipViewChangesOnlyAtStoreAddresses :
    Instr.setvol 9#8 ≠ .resetchip ∧ Instr.setvol 9#8 ≠ .startclk ∧ (∃ t, exec (.setvol 9#8) booted = .next t) ∧
    23#5 ∉ storeAddrs (.setvol 9#8) booted := ⟨by decide, by decide, ⟨_, rfl⟩, by decide⟩
theorem witness_ChipViewAtStoreAddresses :
    (∃ t, exec (.setvol 9#8) booted = .next t) ∧ 24#5 ∈ storeAddrs (.setvol 9#8) booted ∧
    (∃ t, exec .buscommit (withPair 31#5 1#8) = .next t) ∧ 31#5 ∈ storeAddrs .buscommit (withPair 31#5 1#8) :=
  ⟨⟨_, rfl⟩, by decide, ⟨_, rfl⟩, by decide⟩
/-- Block reset is consistent, with no register known. -/
theorem witness_CommandsEffectOnConsistency :
    Consistent (fun _ => 0#8) (withPair 24#5 1#8) ∧ (∃ t, exec (.voiceon 0#2) (withPair 24#5 1#8) = .next t) ∧
    isPushUnit [.voiceon 0#2] ∧ (∃ t, execAll [.setfreq 2#2 1#16, .updfreq 2#2] State.reset = .next t) ∧
    (∃ t, execAll [.setenv 2#2 1#4 0#4 0#4 0#4, .updenv 2#2] State.reset = .next t) ∧
    (∃ t, exec .buscommit (withPair 24#5 1#8) = .next t) ∧ (24#5).toNat ≤ 24 ∧
    image (withPair 24#5 1#8).mirror 24#5 ≠ some 1#8 :=
  ⟨fun a _ h => absurd (by simp [chipView, afterLastReset, withPair, State.setLines, State.reset]) h, ⟨_, rfl⟩, rfl, ⟨_, rfl⟩,
    ⟨_, rfl⟩, ⟨_, rfl⟩, by decide, by decide⟩
theorem witness_BootedFirstIsKept : BootedFirst booted.trace ∧ ∃ t, exec .resetchip booted = .next t := ⟨by decide, _, rfl⟩
theorem witness_BootConsistencyNeedsAZeroResetImage : (0#5).toNat ≤ 24 ∧ (24#5).toNat ≤ 24 := by decide
theorem witness_BootedFacadeRunsKeepTheChipInAgreement :
    LaunchPremise ⟨0#5, 0#8, .high, .high, .high⟩ ∧ (∀ a : Addr, a.toNat ≤ 24 → (fun _ => 0#8 : Addr → Byte) a = 0#8) ∧
    ∀ u ∈ [[Instr.setfreq 2#2 1#16, .updfreq 2#2], [.voiceon 0#2]], isPushUnit u := by
  refine ⟨rfl, fun _ _ => rfl, by simp [isPushUnit, isFacade]⟩
theorem witness_TwoCyclePushesTear :
    (∃ t, exec (.setpw 1#2 0xFFFF#16) booted = .next t) ∧ storeAddrs (.setpw 1#2 0xFFFF#16) booted = [9#5, 10#5] :=
  ⟨⟨_, rfl⟩, by decide⟩
theorem witness_PendingValuesArePushedLater :
    (1#2).toNat = VoiceIx.one.index ∧ (∀ g, Instr.setfreq 1#2 g ∉ [.setvol 3#8, .setfreq 0#2 5#16]) ∧
    (∃ t, execAll [.setfreq 1#2 0xABCD#16, .setvol 3#8, .setfreq 0#2 5#16] booted = .next t) ∧
    (∀ a d u r, Instr.setenv 1#2 a d u r ∉ [.setvol 3#8, .updenv 1#2]) ∧
    ∃ t, execAll [.setenv 1#2 1#4 2#4 3#4 4#4, .setvol 3#8, .updenv 1#2] booted = .next t :=
  ⟨rfl, by simp, ⟨_, rfl⟩, by simp, _, rfl⟩
theorem witness_HeldLinesAreRelatched :
    (0#2).toNat = VoiceIx.zero.index ∧ 0x01#8 = (booted.mirror.voice .zero).ctl ||| 0x01#8 := by decide

end Sys2Proof.Machine.Tests
end

/-! SUPPORT. The latches and the trace move together: each operation of the model appends events to the trace and changes
the latches exactly as those events, replayed, would (R9, R40, R43). -/

namespace Sys2Proof.Machine

/-- The way every operation keeps the invariant: it appends events and leaves the latches those events lead to. -/
theorem linesReplayTrace_of_append {s t : State} (es : List Event) (hs : LinesReplayTrace s)
    (htrace : t.trace = s.trace ++ es) (hlines : t.lines = es.foldl Lines.after s.lines) : LinesReplayTrace t := by
  rw [LinesReplayTrace, htrace, replay_append, hlines, ← hs]

theorem linesReplayTrace_strobe (a : Addr) (d : Byte) {s : State} (hs : LinesReplayTrace s) :
    LinesReplayTrace (strobe a d s) := by
  rw [strobe_eq]
  exact linesReplayTrace_of_append (cycleEvents a d) hs rfl rfl

theorem linesReplayTrace_pushed (a : Addr) (d : Byte) {s : State} (hs : LinesReplayTrace s) :
    LinesReplayTrace (pushed a d s) :=
  linesReplayTrace_of_append (writeEvents a d) hs rfl rfl

theorem linesReplayTrace_pushAll (ps : List (Addr × Byte)) {s : State} (hs : LinesReplayTrace s) :
    LinesReplayTrace (pushAll ps s) := by
  induction ps generalizing s with
  | nil => exact hs
  | cons p ps ih => exact ih (linesReplayTrace_pushed p.1 p.2 hs)

/-- A façade command changes the mirror, which the invariant does not read, and then only pushes. -/
theorem linesReplayTrace_exec_of_isFacade {i : Instr} {s t : State} (hi : isFacade i = true) (hs : LinesReplayTrace s)
    (h : exec i s = .next t) : LinesReplayTrace t := by
  obtain ⟨m, ps, rfl, -⟩ := facade_effect hi h
  exact linesReplayTrace_pushAll ps (s := s.setMirror m) hs

theorem linesReplayTrace_exec {i : Instr} {s t : State} (hs : LinesReplayTrace s) (h : exec i s = .next t) :
    LinesReplayTrace t := by
  cases i with
  | busaddr a =>
    rw [exec_busaddr] at h
    cases h
    exact linesReplayTrace_of_append [.a a] hs rfl rfl
  | busdata d =>
    rw [exec_busdata] at h
    cases h
    exact linesReplayTrace_of_append [.d d] hs rfl rfl
  | buscommit =>
    obtain ⟨a, d, -, -, rfl⟩ := commit_cases h
    exact linesReplayTrace_strobe a d hs
  | resetchip =>
    rw [exec_resetchip] at h
    cases h
    exact linesReplayTrace_of_append pulseEvents hs rfl rfl
  | startclk =>
    rw [exec_startclk] at h
    cases h
    exact linesReplayTrace_of_append (.clkOn :: pulseEvents) hs rfl rfl
  | setfreq _ _ | updfreq _ | setpw _ _ | setenv _ _ _ _ _ | updenv _ | setshape _ _ | voiceon _ | voiceoff _
  | setsync _ _ | setring _ _ | setvol _ => exact linesReplayTrace_exec_of_isFacade rfl hs h

/-- Settles O39: a step waits, or takes a word off the port, which the invariant does not read, and performs its command. -/
theorem stepKeepsLinesReplayingTheTrace : Obligations.StepKeepsLinesReplayingTheTrace := by
  intro s t hs h
  obtain ⟨-, -, ⟨-, rfl⟩ | ⟨w, ws, i, -, -, hexec⟩⟩ := step_cases h
  · exact hs
  · exact linesReplayTrace_exec (s := s.setPort ws) hs hexec

end Sys2Proof.Machine

/-! SUPPORT. Everything a command can do to the state, said once for all sixteen, and what it stores in the mirror. -/

namespace Sys2Proof.Machine

/-! ### The effect of a completing command -/

/-- The next states a command can have. A façade command stores in the mirror and then pushes to its store addresses. -/
inductive Effect (s : State) : Instr → State → Prop
  | address (a : Addr) :
    Effect s (.busaddr a) { s with lines := { s.lines with a := some a }, trace := s.trace ++ [.a a] }
  | data (d : Byte) :
    Effect s (.busdata d) { s with lines := { s.lines with d := some d }, trace := s.trace ++ [.d d] }
  | cycle (a : Addr) (d : Byte) (ha : s.lines.a = some a) (hd : s.lines.d = some d) :
    Effect s .buscommit { s with
      lines := { s.lines with rw := some .low, cs := some .high }
      trace := s.trace ++ cycleEvents a d }
  | reset :
    Effect s .resetchip { s with
      lines := { s.lines with res := some .high }
      phase := if s.lines.clk = .running then .ready else s.phase
      trace := s.trace ++ pulseEvents }
  | startClock :
    Effect s .startclk { s with
      lines := { s.lines with res := some .high, clk := .running }
      phase := .ready
      trace := s.trace ++ .clkOn :: pulseEvents }
  | facade (i : Instr) (m : Mirror) (ps : List (Addr × Byte)) (hi : isFacade i = true)
      (haddrs : ps.map Prod.fst = storeAddrs i s) :
    Effect s i (pushAll ps (s.setMirror m))

theorem effect_of_isFacade {i : Instr} {s t : State} (hi : isFacade i = true) (h : exec i s = .next t) :
    Effect s i t := by
  obtain ⟨m, ps, rfl, haddrs⟩ := facade_effect hi h
  exact .facade i m ps hi haddrs

theorem exec_effect {i : Instr} {s t : State} (h : exec i s = .next t) : Effect s i t := by
  cases i with
  | busaddr a =>
    rw [exec_busaddr] at h
    cases h
    exact .address a
  | busdata d =>
    rw [exec_busdata] at h
    cases h
    exact .data d
  | buscommit =>
    obtain ⟨a, d, ha, hd, rfl⟩ := commit_cases h
    rw [strobe_eq]
    exact .cycle a d ha hd
  | resetchip =>
    rw [exec_resetchip] at h
    cases h
    exact .reset
  | startclk =>
    rw [exec_startclk] at h
    cases h
    exact .startClock
  | setfreq _ _ | updfreq _ | setpw _ _ | setenv _ _ _ _ _ | updenv _ | setshape _ _ | voiceon _ | voiceoff _
  | setsync _ _ | setring _ _ | setvol _ => exact effect_of_isFacade rfl h

/-- What every push keeps, a list of pushes keeps. -/
theorem pushAll_keeps {P : State → Prop} (hpush : ∀ a d s, P s → P (pushed a d s)) (ps : List (Addr × Byte))
    {s : State} (hs : P s) : P (pushAll ps s) := by
  induction ps generalizing s with
  | nil => exact hs
  | cons p ps ih => exact ih (hpush p.1 p.2 s hs)

/-- What every command keeps, and what taking a word off the port leaves alone, every step keeps. -/
theorem step_keeps {P : State → Prop} (hport : ∀ s ws, P s → P (s.setPort ws))
    (hexec : ∀ i s t, P s → exec i s = .next t → P t) {s t : State} (hs : P s) (h : step s = .next t) : P t := by
  obtain ⟨-, -, ⟨-, rfl⟩ | ⟨w, ws, i, -, -, hi⟩⟩ := step_cases h
  · exact hs
  · exact hexec i (s.setPort ws) t (hport s ws hs) hi

/-! ### The mirror a command leaves -/

/-- Change the record of the voice a voice field selects; the out-of-range field changes nothing (R82). -/
def Mirror.updateVoice (v : VoiceField) (g : Voice → Voice) (m : Mirror) : Mirror :=
  match selectVoice v with
  | none => m
  | some k => m.setVoice k (g (m.voice k))

/-- What a command stores in the mirror (R25). -/
def storedMirror (i : Instr) (m : Mirror) : Mirror :=
  match i with
  | .setfreq v f => m.updateVoice v fun x => { x with freq := f }
  | .setpw v w => m.updateVoice v fun x => { x with pw := w }
  | .setenv v atk dec sus rel =>
    m.updateVoice v fun x => { x with ad := packNibbles atk dec, sr := packNibbles sus rel }
  | .setshape v b => m.updateVoice v fun x => { x with ctl := shapeByte x.ctl b }
  | .voiceon v => m.updateVoice v fun x => { x with ctl := gateOn x.ctl }
  | .voiceoff v => m.updateVoice v fun x => { x with ctl := gateOff x.ctl }
  | .setsync v en => m.updateVoice v fun x => { x with ctl := syncByte en x.ctl }
  | .setring v en => m.updateVoice v fun x => { x with ctl := ringByte en x.ctl }
  | .setvol x => m.setFilter { m.filter with modeVol := volumeByte m.filter.modeVol x }
  | .busaddr _ | .busdata _ | .buscommit | .resetchip | .startclk | .updfreq _ | .updenv _ => m

section UpdateVoice

variable (v : VoiceField) (g : Voice → Voice) (m : Mirror)

@[simp] theorem updateVoice_three : m.updateVoice 3#2 g = m := rfl

@[simp] theorem updateVoice_field (k : VoiceIx) : m.updateVoice k.field g = m.setVoice k (g (m.voice k)) := by
  simp [Mirror.updateVoice]

/-- A voice field is out of range or the field of a voice. -/
theorem voiceField_cases : v = 3#2 ∨ ∃ k : VoiceIx, v = k.field := by
  cases h : selectVoice v with
  | none => exact .inl ((selectVoice_eq_none v).1 h)
  | some k => exact .inr ⟨k, (selectVoice_eq_some v k).1 h⟩

@[simp] theorem updateVoice_filter : (m.updateVoice v g).filter = m.filter := by
  rcases voiceField_cases v with rfl | ⟨k, rfl⟩ <;> simp

@[simp] theorem updateVoice_misc : (m.updateVoice v g).misc = m.misc := by
  rcases voiceField_cases v with rfl | ⟨k, rfl⟩ <;> simp

/-- A voice whose record is not as before is the one selected, and its record is the changed one. -/
theorem voice_updateVoice (k : VoiceIx) :
    (m.updateVoice v g).voice k = m.voice k ∨ (v.toNat = k.index ∧ (m.updateVoice v g).voice k = g (m.voice k)) := by
  rcases voiceField_cases v with rfl | ⟨j, rfl⟩
  · exact .inl rfl
  · by_cases hkj : k = j
    · exact .inr ⟨by rw [hkj, field_toNat], by simp [hkj]⟩
    · exact .inl (by simp [hkj])

end UpdateVoice

section WithVoice

variable {v : VoiceField} {s t : State} {act : VoiceIx → State}

theorem mirror_eq_of_withVoice (hact : ∀ k, (act k).mirror = s.mirror) (h : withVoice v s act = .next t) :
    t.mirror = s.mirror := by
  rcases withVoice_cases h with ⟨-, rfl⟩ | ⟨k, -, rfl⟩
  · rfl
  · exact hact k

theorem mirror_updateVoice_of_withVoice {g : Voice → Voice}
    (hact : ∀ k, (act k).mirror = s.mirror.setVoice k (g (s.mirror.voice k))) (h : withVoice v s act = .next t) :
    t.mirror = s.mirror.updateVoice v g := by
  rcases withVoice_cases h with ⟨rfl, rfl⟩ | ⟨k, rfl, rfl⟩
  · rfl
  · rw [hact, updateVoice_field]

theorem mirror_updateVoice_of_updateCtl {new : Byte → Byte} (h : updateCtl v new s = .next t) :
    t.mirror = s.mirror.updateVoice v fun x => { x with ctl := new x.ctl } :=
  mirror_updateVoice_of_withVoice (fun _ => by simp [busWrite_eq]) h

end WithVoice

theorem mirror_eq_of_not_isFacade {i : Instr} {s t : State} (hi : isFacade i = false) (h : exec i s = .next t) :
    t.mirror = s.mirror := by
  cases exec_effect h with
  | address _ | data _ | cycle _ _ _ _ | reset | startClock => rfl
  | facade _ _ _ hf _ => simp [hi] at hf

theorem exec_mirror {i : Instr} {s t : State} (h : exec i s = .next t) : t.mirror = storedMirror i s.mirror := by
  cases i with
  | busaddr _ | busdata _ | buscommit | resetchip | startclk => exact mirror_eq_of_not_isFacade rfl h
  | setfreq v f => exact mirror_updateVoice_of_withVoice (g := fun x => { x with freq := f }) (fun _ => rfl) h
  | setpw v w =>
    exact mirror_updateVoice_of_withVoice (g := fun x => { x with pw := w }) (fun _ => by simp [busWrite_eq]) h
  | setenv v atk dec sus rel =>
    exact mirror_updateVoice_of_withVoice
      (g := fun x => { x with ad := packNibbles atk dec, sr := packNibbles sus rel }) (fun _ => rfl) h
  | updfreq v | updenv v => exact mirror_eq_of_withVoice (fun _ => by simp [busWrite_eq]) h
  | setshape v b => exact mirror_updateVoice_of_updateCtl (new := (shapeByte · b)) h
  | voiceon v => exact mirror_updateVoice_of_updateCtl (new := gateOn) h
  | voiceoff v => exact mirror_updateVoice_of_updateCtl (new := gateOff) h
  | setsync v en => exact mirror_updateVoice_of_updateCtl (new := syncByte en) h
  | setring v en => exact mirror_updateVoice_of_updateCtl (new := ringByte en) h
  | setvol x =>
    rw [exec_setvol] at h
    cases h
    rfl

end Sys2Proof.Machine

/-! SUPPORT. The bus protocol: a command appends whole select pulses, and leaves the bus at rest (R102, R103, log 7). -/

namespace Sys2Proof.Machine

section BusAtRest

variable {s t : State} {es : List Event}

theorem cs_ne_low_of_busAtRest (hs : BusAtRest s) : s.lines.cs ≠ some .low := by
  obtain ⟨-, -, -, -, hcs, -⟩ := hs
  rw [hcs]
  split <;> simp

/-- Events without a LATCH keep the bus at rest when select and read/write stay where they are. -/
theorem busAtRest_append_drives (hs : BusAtRest s) (htrace : t.trace = s.trace ++ es) (hlatches : latches es = [])
    (hbus : es.foldl followBus (some s.lines) = some t.lines)
    (hselect : es.foldl followSelect (some .idle) = some .idle)
    (hcs : t.lines.cs = s.lines.cs) (hrw : t.lines.rw = s.lines.rw) (hres : t.lines.res ≠ some .low) :
    BusAtRest t := by
  obtain ⟨sbus, sselect, srw, -, scs, srw'⟩ := hs
  have hl : latches t.trace = latches s.trace := by rw [htrace, latches_append, hlatches, List.append_nil]
  refine ⟨?_, ?_, hrw ▸ srw, hres, ?_, ?_⟩
  · rw [htrace, List.foldl_append, sbus, hbus]
  · rw [htrace, List.foldl_append, sselect, hselect]
  · rw [hcs, scs, hl]
  · rw [hrw, srw', hl]

/-- Events with a LATCH keep the bus at rest when they end with the chip deselected in write mode. -/
theorem busAtRest_append_write (hs : BusAtRest s) (htrace : t.trace = s.trace ++ es) (hlatches : latches es ≠ [])
    (hbus : es.foldl followBus (some s.lines) = some t.lines)
    (hselect : es.foldl followSelect (some .idle) = some .idle)
    (hcs : t.lines.cs = some .high) (hrw : t.lines.rw = some .low) (hres : t.lines.res = s.lines.res) :
    BusAtRest t := by
  obtain ⟨sbus, sselect, -, sres, -, -⟩ := hs
  have hl : latches t.trace ≠ [] := by simp [htrace, hlatches]
  refine ⟨?_, ?_, by simp [hrw], hres ▸ sres, by rw [hcs, if_neg hl], by rw [hrw, if_neg hl]⟩
  · rw [htrace, List.foldl_append, sbus, hbus]
  · rw [htrace, List.foldl_append, sselect, hselect]

theorem res_ne_low_of_busAtRest (hs : BusAtRest s) : s.lines.res ≠ some .low := by
  obtain ⟨-, -, -, hres, -, -⟩ := hs
  exact hres

end BusAtRest

section FollowBus

variable {l : Lines} (a : Addr) (d : Byte)

/-- The write cycle keeps the protocol from any lines that hold its pair with the chip deselected. -/
theorem foldl_followBus_cycleEvents (hcs : l.cs ≠ some .low) (ha : l.a = some a) (hd : l.d = some d) :
    (cycleEvents a d).foldl followBus (some l) = some { l with rw := some .low, cs := some .high } := by
  simp [cycleEvents, followBus, busAllows, Lines.after, hcs, ha, hd]

theorem foldl_followBus_writeEvents (hcs : l.cs ≠ some .low) :
    (writeEvents a d).foldl followBus (some l) =
      some { l with a := some a, d := some d, rw := some .low, cs := some .high } := by
  simp [writeEvents, followBus, busAllows, Lines.after, hcs]

theorem foldl_followBus_pulseEvents (hcs : l.cs ≠ some .low) :
    pulseEvents.foldl followBus (some l) = some { l with res := some .high } := by
  simp [pulseEvents, followBus, busAllows, Lines.after, hcs]

theorem followBus_of_allowed {e : Event} (h : busAllows l e = true) : followBus (some l) e = some (l.after e) := by
  simp [followBus, h]

end FollowBus

theorem busAtRest_pushed (a : Addr) (d : Byte) (s : State) (hs : BusAtRest s) : BusAtRest (pushed a d s) :=
  busAtRest_append_write hs rfl (by simp) (foldl_followBus_writeEvents a d (cs_ne_low_of_busAtRest hs)) rfl rfl rfl rfl

theorem busAtRest_exec {i : Instr} {s t : State} (hs : BusAtRest s) (h : exec i s = .next t) : BusAtRest t := by
  have hcs := cs_ne_low_of_busAtRest hs
  have hres := res_ne_low_of_busAtRest hs
  cases exec_effect h with
  | address a =>
    exact busAtRest_append_drives (es := [.a a]) hs rfl rfl
      (followBus_of_allowed (by simp [busAllows, hcs])) rfl rfl rfl hres
  | data d =>
    exact busAtRest_append_drives (es := [.d d]) hs rfl rfl
      (followBus_of_allowed (by simp [busAllows, hcs])) rfl rfl rfl hres
  | cycle a d ha hd =>
    exact busAtRest_append_write hs rfl (by simp) (foldl_followBus_cycleEvents a d hcs ha hd) rfl rfl rfl rfl
  | reset =>
    exact busAtRest_append_drives hs rfl rfl (foldl_followBus_pulseEvents hcs) rfl rfl rfl (by simp)
  | startClock =>
    have hclk : followBus (some s.lines) .clkOn = some (s.lines.after .clkOn) :=
      followBus_of_allowed (by simp [busAllows, hcs])
    refine busAtRest_append_drives (es := .clkOn :: pulseEvents) hs rfl rfl ?_ rfl rfl rfl (by simp)
    rw [List.foldl_cons, hclk, foldl_followBus_pulseEvents (l := s.lines.after .clkOn) hcs]
    rfl
  | facade i m ps _ _ => exact pushAll_keeps busAtRest_pushed ps (s := s.setMirror m) hs

/-- Settles O40. -/
theorem stepKeepsTheBusAtRest : Obligations.StepKeepsTheBusAtRest :=
  fun _ _ => step_keeps (P := fun u => BusAtRest u) (fun _ _ h => h) fun _ _ _ => busAtRest_exec

end Sys2Proof.Machine

/-! SUPPORT. The invariants of the block: the always-zero bits, the phase with the clock, and the induction that gives all
four of every state block reset leads to. -/

namespace Sys2Proof.Machine

/-! ### The always-zero bits (R27) -/

theorem shapeByte_bit3 (c b : Byte) : (shapeByte c b).getLsbD 3 = c.getLsbD 3 := by simp [shapeByte]
theorem gateOn_bit3 (c : Byte) : (gateOn c).getLsbD 3 = c.getLsbD 3 := by simp [gateOn]
theorem gateOff_bit3 (c : Byte) : (gateOff c).getLsbD 3 = c.getLsbD 3 := by simp [gateOff]
theorem syncByte_bit3 (en : Bool) (c : Byte) : (syncByte en c).getLsbD 3 = c.getLsbD 3 := by
  cases en <;> simp [syncByte]
theorem ringByte_bit3 (en : Bool) (c : Byte) : (ringByte en c).getLsbD 3 = c.getLsbD 3 := by
  cases en <;> simp [ringByte]

/-- SETVOL keeps the high nibble of MODEVOL (R160). -/
theorem volumeByte_high (b x : Byte) : volumeByte b x &&& 0xF0#8 = b &&& 0xF0#8 := by
  ext i hi
  interval_cases i <;> simp [volumeByte]

/-- A change of a voice's record that keeps its test bit keeps the always-zero bits. -/
theorem alwaysZeroBits_updateVoice (v : VoiceField) {g : Voice → Voice} {m : Mirror}
    (hg : ∀ x, (g x).ctl.getLsbD 3 = x.ctl.getLsbD 3) (hm : AlwaysZeroBits m) : AlwaysZeroBits (m.updateVoice v g) := by
  have htest : ∀ k, ((m.updateVoice v g).voice k).ctl.getLsbD 3 = (m.voice k).ctl.getLsbD 3 := fun k => by
    rcases voice_updateVoice v g m k with h | ⟨-, h⟩
    · rw [h]
    · rw [h, hg]
  obtain ⟨hfc, hres, hvol, hmisc, h0, h1, h2⟩ := hm
  exact ⟨by simpa using hfc, by simpa using hres, by simpa using hvol, by simpa using hmisc,
    (htest .zero).trans h0, (htest .one).trans h1, (htest .two).trans h2⟩

theorem alwaysZeroBits_storedMirror (i : Instr) {m : Mirror} (hm : AlwaysZeroBits m) :
    AlwaysZeroBits (storedMirror i m) := by
  cases i with
  | busaddr _ | busdata _ | buscommit | resetchip | startclk | updfreq _ | updenv _ => exact hm
  | setfreq v _ | setpw v _ | setenv v _ _ _ _ => exact alwaysZeroBits_updateVoice v (fun _ => rfl) hm
  | setshape v b => exact alwaysZeroBits_updateVoice v (fun x => shapeByte_bit3 x.ctl b) hm
  | voiceon v => exact alwaysZeroBits_updateVoice v (fun x => gateOn_bit3 x.ctl) hm
  | voiceoff v => exact alwaysZeroBits_updateVoice v (fun x => gateOff_bit3 x.ctl) hm
  | setsync v en => exact alwaysZeroBits_updateVoice v (fun x => syncByte_bit3 en x.ctl) hm
  | setring v en => exact alwaysZeroBits_updateVoice v (fun x => ringByte_bit3 en x.ctl) hm
  | setvol x =>
    obtain ⟨hfc, hres, hvol, hrest⟩ := hm
    exact ⟨hfc, hres, (volumeByte_high _ x).trans hvol, hrest⟩

theorem alwaysZeroBits_exec {i : Instr} {s t : State} (hs : AlwaysZeroBits s.mirror) (h : exec i s = .next t) :
    AlwaysZeroBits t.mirror := by
  rw [exec_mirror h]
  exact alwaysZeroBits_storedMirror i hs

theorem alwaysZeroBits_step {s t : State} (hs : AlwaysZeroBits s.mirror) (h : step s = .next t) :
    AlwaysZeroBits t.mirror :=
  step_keeps (P := fun u => AlwaysZeroBits u.mirror) (fun _ _ h => h) (fun _ _ _ => alwaysZeroBits_exec) hs h

/-! ### The clock and the phase (R40, R45) -/

theorem pushAll_clk (ps : List (Addr × Byte)) (s : State) : (pushAll ps s).lines.clk = s.lines.clk :=
  pushAll_keeps (P := fun u => u.lines.clk = s.lines.clk) (fun _ _ _ h => h) ps rfl

theorem exec_clk_of_ne_startclk {i : Instr} {s t : State} (hi : i ≠ .startclk) (h : exec i s = .next t) :
    t.lines.clk = s.lines.clk := by
  cases exec_effect h with
  | address _ | data _ | cycle _ _ _ _ | reset => rfl
  | startClock => exact absurd rfl hi
  | facade i m ps _ _ => exact pushAll_clk ps (s.setMirror m)

theorem startclk_clk {s t : State} (h : exec .startclk s = .next t) : t.lines.clk = .running := by
  rw [exec_startclk] at h
  cases h
  rfl

theorem phaseFollowsClock_exec {i : Instr} {s t : State} (hs : PhaseFollowsClock s) (h : exec i s = .next t) :
    PhaseFollowsClock t := by
  cases exec_effect h with
  | address _ | data _ | cycle _ _ _ _ => exact hs
  | reset =>
    by_cases hclk : s.lines.clk = .running
    · simp [PhaseFollowsClock, hclk]
    · simpa [PhaseFollowsClock, hclk] using hs
  | startClock => simp [PhaseFollowsClock]
  | facade i m ps _ _ =>
    exact pushAll_keeps (P := fun u => PhaseFollowsClock u) (fun _ _ _ h => h) ps
      (s := s.setMirror m) hs

/-- Settles O41. -/
theorem stepKeepsPhaseWithClock : Obligations.StepKeepsPhaseWithClock :=
  fun _ _ => step_keeps (P := fun u => PhaseFollowsClock u) (fun _ _ h => h) fun _ _ _ => phaseFollowsClock_exec

/-- Settles O34: off STARTCLK a command leaves the clock as it is, and STARTCLK leaves it running. -/
theorem clockRunsOnceStarted : Obligations.ClockRunsOnceStarted := by
  intro f i s t h
  have hkeep : i ≠ .startclk → clockFrequency f t = clockFrequency f s := fun hi => by
    simp only [clockFrequency, exec_clk_of_ne_startclk hi h]
  refine ⟨fun hf => ?_, fun hf hi => (hkeep hi).trans hf⟩
  by_cases hi : i = .startclk
  · subst hi
    simp [clockFrequency, startclk_clk h]
  · exact (hkeep hi).trans hf

/-! ### The states block reset leads to -/

/-- A property that every step keeps and that reads no mark is kept whether the block steps or stops. -/
theorem advance_keeps {P : State → Prop} (hstep : ∀ s t, P s → step s = .next t → P t)
    (hmarks : ∀ s f r, P s → P { s with fault := f, refused := r }) {s : State} (hs : P s) : P (advance s) := by
  unfold advance
  cases h : step s with
  | next t => exact hstep s t hs h
  | fault f => exact hmarks s (some f) s.refused hs
  | refused r => exact hmarks s s.fault true hs

theorem advanceN_keeps {P : State → Prop} (hadvance : ∀ s, P s → P (advance s)) (n : Nat) {s : State} (hs : P s) :
    P (advanceN n s) := by
  induction n generalizing s with
  | zero => exact hs
  | succ n ih => exact ih (hadvance s hs)

/-- The four invariants together. None of them reads a mark or the port. -/
def MeetsInvariants (s : State) : Prop :=
  AlwaysZeroBits s.mirror ∧ LinesReplayTrace s ∧ BusAtRest s ∧ PhaseFollowsClock s

theorem meetsInvariants_step (s t : State) (hs : MeetsInvariants s) (h : step s = .next t) : MeetsInvariants t := by
  obtain ⟨hzero, hlines, hbus, hphase⟩ := hs
  exact ⟨alwaysZeroBits_step hzero h, stepKeepsLinesReplayingTheTrace s t hlines h,
    stepKeepsTheBusAtRest s t hbus h, stepKeepsPhaseWithClock s t hphase h⟩

theorem meetsInvariants_reset : MeetsInvariants State.reset :=
  ⟨by decide, rfl, by decide, by decide⟩

/-- Settles O42. -/
theorem resetMeetsTheInvariants : Obligations.ResetMeetsTheInvariants := meetsInvariants_reset

/-- Settles O43: block reset meets the invariants, presenting words changes nothing they read, every advance keeps them. -/
theorem reachableStatesMeetTheInvariants : Obligations.ReachableStatesMeetTheInvariants := by
  rintro ws n _ rfl
  have hpresent : MeetsInvariants (present ws State.reset) := meetsInvariants_reset
  exact advanceN_keeps (P := MeetsInvariants) (fun _ => advance_keeps meetsInvariants_step fun _ _ _ h => h) n hpresent

end Sys2Proof.Machine

/-! SUPPORT. The step: what a marked state answers, and which command an unmarked one performs (R49, R204). -/

namespace Sys2Proof.Machine

theorem step_of_fault {s : State} {f : Fault} (h : s.fault = some f) : step s = .fault f := by
  simp [step, stopped, h, raise]

theorem step_of_refused {s : State} (hf : s.fault = none) (hr : s.refused = true) :
    step s = .refused .reservedWord := by
  simp [step, stopped, hf, hr, refuse]

theorem step_of_decode {s : State} {w : Word} {ws : List Word} {i : Instr} (hs : Unmarked s) (hp : s.port = w :: ws)
    (hd : decode w = some i) : step s = exec i (s.setPort ws) := by
  simp [step, (stopped_eq_none s).2 hs, takeWord_cons s w ws hp, hd]

/-- Recording a mark that is already set changes nothing. -/
theorem advance_of_marked {s : State} (hs : ¬Unmarked s) : advance s = s := by
  obtain ⟨mirror, lines, phase, fault, refused, trace, port⟩ := s
  cases fault with
  | some f => rw [advance, step_of_fault rfl]; rfl
  | none =>
    cases refused with
    | false => exact absurd ⟨rfl, rfl⟩ hs
    | true => rw [advance, step_of_refused rfl rfl]; rfl

/-- Settles O9: only an unmarked state has a next one. -/
theorem markedStateTakesNoFurtherStep : Obligations.MarkedStateTakesNoFurtherStep := by
  intro s hs
  refine ⟨fun t h => ?_, advance_of_marked hs⟩
  obtain ⟨hf, hr, -⟩ := step_cases h
  exact hs ⟨hf, hr⟩

/-- Settles O7: taking the word that `withFetchWord` placed gives back the state it was placed in. -/
theorem stepPerformsTheDecodedCommand : Obligations.StepPerformsTheDecodedCommand := by
  refine ⟨fun s w ws i hs hp hd => step_of_decode hs hp hd, fun s nbits w i hs hd => ?_⟩
  have hword : decode (tableWord nbits w) = some i := by
    unfold decodeTableWord at hd
    split at hd
    · exact hd
    · cases hd
  exact step_of_decode (s := s.withFetchWord nbits w) hs rfl hword

/-- Settles O12. -/
theorem resetLeavesTheRuleValues : Obligations.ResetLeavesTheRuleValues := by
  refine ⟨fun k => ?_, rfl, rfl, rfl, rfl, rfl, rfl, rfl⟩
  cases k <;> rfl

end Sys2Proof.Machine

/-! SUPPORT. The frames of a command: marks and port, the trace it appends to, the mirror fields and the registers it
writes, and the lines it drives. -/

namespace Sys2Proof.Machine

/-! ### Marks and port -/

/-- Two states have the same marks and the same words in line. -/
def SameMarksAndPort (s t : State) : Prop := t.fault = s.fault ∧ t.refused = s.refused ∧ t.port = s.port

theorem sameMarksAndPort_refl (s : State) : SameMarksAndPort s s := ⟨rfl, rfl, rfl⟩

/-- Settles O11: an effect is a change of mirror, lines, phase and trace alone. -/
theorem commandsKeepMarksAndPort : Obligations.CommandsKeepMarksAndPort := by
  intro i s t h
  show SameMarksAndPort s t
  cases exec_effect h with
  | address _ | data _ | cycle _ _ _ _ | reset | startClock => exact sameMarksAndPort_refl s
  | facade i m ps _ _ =>
    exact pushAll_keeps (P := SameMarksAndPort s) (fun _ _ _ h => h) ps (s := s.setMirror m) (sameMarksAndPort_refl s)

/-! ### The trace is appended to and not read: a command commutes with putting an older history before the trace -/

/-- The state with an older history before its trace. -/
def State.prepend (u : List Event) (s : State) : State := { s with trace := u ++ s.trace }

/-- Change the next state of an answer. -/
def mapNext (f : State → State) : Result → Result
  | .next t => .next (f t)
  | .fault r => .fault r
  | .refused r => .refused r

section Prepend

variable (u : List Event) (s : State)

@[simp] theorem prepend_mirror : (s.prepend u).mirror = s.mirror := rfl
@[simp] theorem prepend_lines : (s.prepend u).lines = s.lines := rfl
@[simp] theorem mapNext_next (f : State → State) (t : State) : mapNext f (.next t) = .next (f t) := rfl

theorem emit_prepend (e : Event) : (s.prepend u).emit e = (s.emit e).prepend u := by
  simp [State.prepend, State.emit]

theorem driveA_prepend (a : Addr) : driveA a (s.prepend u) = (driveA a s).prepend u := emit_prepend u (s.setLines _) _
theorem driveD_prepend (d : Byte) : driveD d (s.prepend u) = (driveD d s).prepend u := emit_prepend u (s.setLines _) _

theorem strobe_prepend (a : Addr) (d : Byte) : strobe a d (s.prepend u) = (strobe a d s).prepend u := by
  simp [strobe_eq, State.prepend]

@[simp] theorem busWrite_prepend (a : Addr) (d : Byte) : busWrite a d (s.prepend u) = (busWrite a d s).prepend u := by
  simp only [busWrite, driveA_prepend, driveD_prepend, strobe_prepend]

@[simp] theorem setVoice_prepend (k : VoiceIx) (x : Voice) :
    (s.prepend u).setVoice k x = (s.setVoice k x).prepend u := rfl

@[simp] theorem setFilter_prepend (f : Filter) : (s.prepend u).setFilter f = (s.setFilter f).prepend u := rfl

theorem commit_prepend : commit (s.prepend u) = mapNext (State.prepend u) (commit s) := by
  cases ha : s.lines.a <;> cases hd : s.lines.d <;> simp [commit, ha, hd, raise, mapNext, strobe_prepend]

theorem withVoice_prepend {v : VoiceField} {act act' : VoiceIx → State} (hact : ∀ k, act' k = (act k).prepend u) :
    withVoice v (s.prepend u) act' = mapNext (State.prepend u) (withVoice v s act) := by
  rcases voiceField_cases v with rfl | ⟨k, rfl⟩
  · rfl
  · simp [hact]

theorem updateCtl_prepend (v : VoiceField) (new : Byte → Byte) :
    updateCtl v new (s.prepend u) = mapNext (State.prepend u) (updateCtl v new s) :=
  withVoice_prepend u s fun _ => by simp

theorem exec_prepend (i : Instr) : exec i (s.prepend u) = mapNext (State.prepend u) (exec i s) := by
  cases i with
  | busaddr a => exact congrArg Host.Outcome.next (driveA_prepend u s a)
  | busdata d => exact congrArg Host.Outcome.next (driveD_prepend u s d)
  | buscommit => exact commit_prepend u s
  | resetchip => simp [exec_resetchip, State.prepend]
  | startclk => simp [exec_startclk, State.prepend]
  | setfreq _ _ | updfreq _ | setpw _ _ | setenv _ _ _ _ _ | updenv _ => exact withVoice_prepend u s fun _ => by simp
  | setshape v m => exact updateCtl_prepend u s v (shapeByte · m)
  | voiceon v => exact updateCtl_prepend u s v gateOn
  | voiceoff v => exact updateCtl_prepend u s v gateOff
  | setsync v en => exact updateCtl_prepend u s v (syncByte en)
  | setring v en => exact updateCtl_prepend u s v (ringByte en)
  | setvol x => simp [exec, execSetvol]

/-- On any history the command does what it does on an empty trace, and the trace it then leaves is what it appends. -/
theorem exec_withTrace (i : Instr) :
    exec i { s with trace := u } = mapNext (State.prepend u) (exec i { s with trace := [] }) := by
  rw [← exec_prepend, State.prepend, List.append_nil]

end Prepend

/-- Settles O35: the events appended are those the command leaves on an empty trace. -/
theorem traceGrowsAndIsNotRead : Obligations.TraceGrowsAndIsNotRead := by
  intro i s t u h
  have hs := exec_withTrace s.trace s i
  have hu := exec_withTrace u s i
  rw [show { s with trace := s.trace } = s from rfl, h] at hs
  cases hr : exec i { s with trace := [] } with
  | fault _ | refused _ => rw [hr] at hs; cases hs
  | next r =>
    rw [hr, mapNext_next] at hs hu
    cases hs
    exact ⟨r.trace, rfl, hu⟩

/-! ### The mirror fields and their writers (R25) -/

section Writers

variable {i : Instr} {m : Mirror} {k : VoiceIx}

/-- A field of a voice that an update changed: the voice is the one selected, and the update changes that field. -/
theorem field_updateVoice_ne {α : Type} {p : Voice → α} {v : VoiceField} {g : Voice → Voice}
    (h : p ((m.updateVoice v g).voice k) ≠ p (m.voice k)) : v.toNat = k.index ∧ p (g (m.voice k)) ≠ p (m.voice k) := by
  rcases voice_updateVoice v g m k with hv | ⟨hk, hv⟩
  · exact absurd (congrArg p hv) h
  · exact ⟨hk, hv ▸ h⟩

theorem field_setFilter {α : Type} (p : Voice → α) (f : Filter) : p ((m.setFilter f).voice k) = p (m.voice k) := by
  rw [voice_setFilter]

theorem freq_writer (h : ((storedMirror i m).voice k).freq ≠ (m.voice k).freq) :
    ∃ v f, i = .setfreq v f ∧ v.toNat = k.index := by
  cases i with
  | setfreq v f => exact ⟨v, f, rfl, (field_updateVoice_ne h).1⟩
  | setpw _ _ | setenv _ _ _ _ _ | setshape _ _ | voiceon _ | voiceoff _ | setsync _ _ | setring _ _ =>
    exact absurd rfl (field_updateVoice_ne h).2
  | setvol _ => exact absurd (field_setFilter Voice.freq _) h
  | busaddr _ | busdata _ | buscommit | resetchip | startclk | updfreq _ | updenv _ => exact absurd rfl h

theorem pw_writer (h : ((storedMirror i m).voice k).pw ≠ (m.voice k).pw) :
    ∃ v w, i = .setpw v w ∧ v.toNat = k.index := by
  cases i with
  | setpw v w => exact ⟨v, w, rfl, (field_updateVoice_ne h).1⟩
  | setfreq _ _ | setenv _ _ _ _ _ | setshape _ _ | voiceon _ | voiceoff _ | setsync _ _ | setring _ _ =>
    exact absurd rfl (field_updateVoice_ne h).2
  | setvol _ => exact absurd (field_setFilter Voice.pw _) h
  | busaddr _ | busdata _ | buscommit | resetchip | startclk | updfreq _ | updenv _ => exact absurd rfl h

theorem ctl_writer (h : ((storedMirror i m).voice k).ctl ≠ (m.voice k).ctl) :
    ∃ v, v.toNat = k.index ∧ ((∃ b, i = .setshape v b) ∨ i = .voiceon v ∨ i = .voiceoff v ∨
      (∃ en, i = .setsync v en) ∨ ∃ en, i = .setring v en) := by
  cases i with
  | setshape v b => exact ⟨v, (field_updateVoice_ne h).1, .inl ⟨b, rfl⟩⟩
  | voiceon v => exact ⟨v, (field_updateVoice_ne h).1, .inr (.inl rfl)⟩
  | voiceoff v => exact ⟨v, (field_updateVoice_ne h).1, .inr (.inr (.inl rfl))⟩
  | setsync v en => exact ⟨v, (field_updateVoice_ne h).1, .inr (.inr (.inr (.inl ⟨en, rfl⟩)))⟩
  | setring v en => exact ⟨v, (field_updateVoice_ne h).1, .inr (.inr (.inr (.inr ⟨en, rfl⟩)))⟩
  | setfreq _ _ | setpw _ _ | setenv _ _ _ _ _ => exact absurd rfl (field_updateVoice_ne h).2
  | setvol _ => exact absurd (field_setFilter Voice.ctl _) h
  | busaddr _ | busdata _ | buscommit | resetchip | startclk | updfreq _ | updenv _ => exact absurd rfl h

/-- The two envelope bytes of a voice. -/
def Voice.envelope (x : Voice) : Byte × Byte := (x.ad, x.sr)

theorem envelope_writer (h : ((storedMirror i m).voice k).envelope ≠ (m.voice k).envelope) :
    ∃ v atk dec sus rel, i = .setenv v atk dec sus rel ∧ v.toNat = k.index := by
  cases i with
  | setenv v atk dec sus rel => exact ⟨v, atk, dec, sus, rel, rfl, (field_updateVoice_ne h).1⟩
  | setfreq _ _ | setpw _ _ | setshape _ _ | voiceon _ | voiceoff _ | setsync _ _ | setring _ _ =>
    exact absurd rfl (field_updateVoice_ne h).2
  | setvol _ => exact absurd (field_setFilter Voice.envelope _) h
  | busaddr _ | busdata _ | buscommit | resetchip | startclk | updfreq _ | updenv _ => exact absurd rfl h

/-- The filter record a command leaves: SETVOL's volume, or as it was. -/
theorem storedMirror_filter (i : Instr) (m : Mirror) :
    (storedMirror i m).filter = m.filter ∨
      ∃ x, i = .setvol x ∧
        (storedMirror i m).filter = { m.filter with modeVol := volumeByte m.filter.modeVol x } := by
  cases i with
  | setvol x => exact .inr ⟨x, rfl, rfl⟩
  | setfreq _ _ | setpw _ _ | setenv _ _ _ _ _ | setshape _ _ | voiceon _ | voiceoff _ | setsync _ _ | setring _ _ =>
    exact .inl (updateVoice_filter _ _ m)
  | busaddr _ | busdata _ | buscommit | resetchip | startclk | updfreq _ | updenv _ => exact .inl rfl

theorem storedMirror_misc (i : Instr) (m : Mirror) : (storedMirror i m).misc = m.misc := by
  cases i with
  | setfreq _ _ | setpw _ _ | setenv _ _ _ _ _ | setshape _ _ | voiceon _ | voiceoff _ | setsync _ _ | setring _ _ =>
    exact updateVoice_misc _ _ m
  | busaddr _ | busdata _ | buscommit | resetchip | startclk | updfreq _ | updenv _ | setvol _ => rfl

end Writers

/-- Settles O31, field by field of the mirror the command stores. -/
theorem mirrorFieldsHaveTheirWriters : Obligations.MirrorFieldsHaveTheirWriters := by
  intro i s t h
  rw [exec_mirror h]
  have henv : ∀ k, (((storedMirror i s.mirror).voice k).ad ≠ (s.mirror.voice k).ad ∨
      ((storedMirror i s.mirror).voice k).sr ≠ (s.mirror.voice k).sr) →
      ((storedMirror i s.mirror).voice k).envelope ≠ (s.mirror.voice k).envelope := fun k hk heq => by
    obtain ⟨had, hsr⟩ := Prod.mk.inj heq
    exact hk.elim (· had) (· hsr)
  refine ⟨fun k => freq_writer, fun k => pw_writer, fun k => ctl_writer, fun k hk => envelope_writer (henv k hk), ?_⟩
  rcases storedMirror_filter i s.mirror with hf | ⟨x, hi, hf⟩
  · rw [hf]
    exact ⟨fun hvol => absurd rfl hvol, rfl, rfl, storedMirror_misc i s.mirror⟩
  · rw [hf]
    exact ⟨fun _ => ⟨x, hi⟩, rfl, rfl, storedMirror_misc i s.mirror⟩

/-! ### Register writes (R30, R39) -/

theorem latches_pushAll (ps : List (Addr × Byte)) (s : State) :
    latches (pushAll ps s).trace = latches s.trace ++ ps := by
  induction ps generalizing s with
  | nil => simp [pushAll]
  | cons p ps ih =>
    calc latches (pushAll ps (pushed p.1 p.2 s)).trace
      _ = latches (pushed p.1 p.2 s).trace ++ ps := ih _
      _ = latches s.trace ++ p :: ps := by simp

theorem latched_addresses_exec {i : Instr} {s t : State} (h : exec i s = .next t) :
    (latches t.trace).map Prod.fst = (latches s.trace).map Prod.fst ++ storeAddrs i s := by
  cases exec_effect h with
  | address _ | data _ | reset | startClock => simp [storeAddrs, latches, pulseEvents, Event.latched?]
  | cycle a d ha hd => simp [storeAddrs, ha]
  | facade i m ps _ haddrs => simp [latches_pushAll, haddrs]

theorem regAddr_le_twenty (k : VoiceIx) (r : VoiceReg) : (regAddr k r).toNat ≤ 20 := by
  cases k <;> cases r <;> decide

theorem voiceAddrs_le_twenty {v : VoiceField} {rs : List VoiceReg} {a : Addr} (h : a ∈ voiceAddrs v rs) :
    a.toNat ≤ 20 := by
  rcases voiceField_cases v with rfl | ⟨k, rfl⟩
  · simp [voiceAddrs] at h
  · simp only [voiceAddrs, selectVoice_field, List.mem_map] at h
    obtain ⟨r, -, rfl⟩ := h
    exact regAddr_le_twenty k r

theorem storeAddrs_of_isFacade {i : Instr} {s : State} {a : Addr} (hi : isFacade i = true) (h : a ∈ storeAddrs i s) :
    a.toNat ≤ 20 ∨ a.toNat = 24 := by
  cases i with
  | busaddr _ | busdata _ | buscommit | resetchip | startclk => simp [isFacade] at hi
  | setfreq _ _ | setenv _ _ _ _ _ => simp [storeAddrs] at h
  | updfreq _ | setpw _ _ | updenv _ | setshape _ _ | voiceon _ | voiceoff _ | setsync _ _ | setring _ _ =>
    exact .inl (voiceAddrs_le_twenty h)
  | setvol _ =>
    rw [storeAddrs, List.mem_singleton] at h
    exact .inr (h ▸ rfl)

/-- Settles O46. -/
theorem registerWritesGoToTheStoreAddresses : Obligations.RegisterWritesGoToTheStoreAddresses :=
  fun _ _ _ h => ⟨latched_addresses_exec h, fun hi _ ha => storeAddrs_of_isFacade hi ha⟩

/-! ### The register image (R28-R31) and the line bits (R42) -/

theorem image_regAddr (m : Mirror) (k : VoiceIx) (r : VoiceReg) : image m (regAddr k r) = some ((m.voice k).image r) := by
  cases k <;> cases r <;> rfl

/-- The cutoff's registers, where the cutoff is 0 (R36). -/
theorem image_cutoff_zero {m : Mirror} (h : m.filter.fc = 0) : image m 21#5 = some 0 ∧ image m 22#5 = some 0 := by
  constructor <;> simp [image, register, Register.image, h]

theorem register_unmapped : ∀ a : Addr, 29 ≤ a.toNat → register a = none := by decide

/-- Settles O44. -/
theorem imageFollowsTheRegisterMap : Obligations.ImageFollowsTheRegisterMap := by
  intro m
  refine ⟨fun k => ?_, image_cutoff_zero, rfl, rfl, rfl, rfl, rfl, rfl, fun a ha => ?_⟩
  · exact ⟨image_regAddr m k .flo, image_regAddr m k .fhi, image_regAddr m k .plo, image_regAddr m k .phi,
      image_regAddr m k .ctl, image_regAddr m k .ad, image_regAddr m k .sr⟩
  · rw [image, register_unmapped a ha, Option.map_none]

/-- Settles O45: the level of the driven lines is the value driven. -/
theorem linesCarryTheBitsDriven : Obligations.LinesCarryTheBitsDriven :=
  fun _ s => ⟨fun a => ⟨_, exec_busaddr a s, fun _ _ => rfl⟩, fun d => ⟨_, exec_busdata d s, fun _ _ => rfl⟩⟩

end Sys2Proof.Machine

/-! SUPPORT. The chip view after each command: the registers it leaves alone and those it leaves as the mirror says
(R66, R67, R69). -/

namespace Sys2Proof.Machine

/-! ### The chip view after a list of pushes -/

theorem chipView_pushAll_of_notMem (img : Addr → Byte) {ps : List (Addr × Byte)} (s : State) {a : Addr}
    (ha : a ∉ ps.map Prod.fst) : chipView img (pushAll ps s).trace a = chipView img s.trace a := by
  induction ps generalizing s with
  | nil => rfl
  | cons p ps ih =>
    rw [List.map_cons, List.mem_cons, not_or] at ha
    obtain ⟨hp, hps⟩ := ha
    calc chipView img (pushAll ps (pushed p.1 p.2 s)).trace a
      _ = chipView img (pushed p.1 p.2 s).trace a := ih _ hps
      _ = chipView img s.trace a := by rw [chipView_pushed, if_neg (Ne.symm hp)]

/-- The last push to an address decides, and every push carries the image. -/
theorem chipView_pushAll_of_mem (img : Addr → Byte) {ps : List (Addr × Byte)} {m : Mirror}
    (hps : ∀ p ∈ ps, image m p.1 = some p.2) (s : State) {a : Addr} (ha : a ∈ ps.map Prod.fst) :
    chipView img (pushAll ps s).trace a = image m a := by
  induction ps generalizing s with
  | nil => simp at ha
  | cons p ps ih =>
    obtain ⟨hp, hps⟩ := List.forall_mem_cons.1 hps
    by_cases hlater : a ∈ ps.map Prod.fst
    · exact ih hps (pushed p.1 p.2 s) hlater
    · have hnow : a = p.1 := by simpa [hlater] using ha
      calc chipView img (pushAll ps (pushed p.1 p.2 s)).trace a
        _ = chipView img (pushed p.1 p.2 s).trace a := chipView_pushAll_of_notMem img _ hlater
        _ = image m a := by rw [chipView_pushed, if_pos hnow.symm, hnow, hp]

/-! ### The frame of the chip's registers (R69) -/

theorem ne_lifecycle_of_isFacade {i : Instr} (hi : isFacade i = true) : i ≠ .resetchip ∧ i ≠ .startclk := by
  constructor <;> rintro rfl <;> simp [isFacade] at hi

theorem chipView_exec_of_notMem (img : Addr → Byte) {i : Instr} {s t : State} {a : Addr} (hreset : i ≠ .resetchip)
    (hstart : i ≠ .startclk) (h : exec i s = .next t) (ha : a ∉ storeAddrs i s) :
    chipView img t.trace a = chipView img s.trace a := by
  cases exec_effect h with
  | address _ | data _ => exact chipView_snoc_other img s.trace _ a (by simp) rfl
  | cycle x d hx hd =>
    have hne : x ≠ a := by
      rintro rfl
      exact ha (by simp [storeAddrs, hx])
    exact (chipView_cycleEvents img s.trace x d a).trans (if_neg hne)
  | reset => exact absurd rfl hreset
  | startClock => exact absurd rfl hstart
  | facade i m ps _ haddrs => exact chipView_pushAll_of_notMem img (s.setMirror m) (haddrs ▸ ha)

/-- Settles O47. -/
theorem chipViewChangesOnlyAtStoreAddresses : Obligations.ChipViewChangesOnlyAtStoreAddresses :=
  fun img _ _ _ _ hreset hstart h ha => chipView_exec_of_notMem img hreset hstart h ha

/-! ### The bytes a façade command pushes are the image of the mirror it leaves (R67) -/

/-- The next state comes from pushes to these addresses, in their order, each of the byte its own mirror says. -/
def PushesImage (addrs : List Addr) (s t : State) : Prop :=
  ∃ ps : List (Addr × Byte), ps.map Prod.fst = addrs ∧ t = pushAll ps (s.setMirror t.mirror) ∧
    ∀ p ∈ ps, image t.mirror p.1 = some p.2

theorem chipView_of_pushesImage (img : Addr → Byte) {addrs : List Addr} {s t : State} {a : Addr}
    (h : PushesImage addrs s t) (ha : a ∈ addrs) : chipView img t.trace a = image t.mirror a := by
  obtain ⟨ps, rfl, ht, hps⟩ := h
  exact (congrArg (fun u : State => chipView img u.trace a) ht).trans (chipView_pushAll_of_mem img hps _ ha)

/-- The address and the mirrored byte of each of these registers of a voice. -/
def voicePushes (m : Mirror) (k : VoiceIx) (rs : List VoiceReg) : List (Addr × Byte) :=
  rs.map fun r => (regAddr k r, (m.voice k).image r)

theorem image_of_mem_voicePushes {m : Mirror} {k : VoiceIx} {rs : List VoiceReg} {p : Addr × Byte}
    (hp : p ∈ voicePushes m k rs) : image m p.1 = some p.2 := by
  obtain ⟨r, -, rfl⟩ := List.mem_map.1 hp
  exact image_regAddr m k r

/-- A command with a voice operand pushes the image when, in range, it pushes the image of the voice's registers. -/
theorem pushesImage_of_withVoice (rs : List VoiceReg) {v : VoiceField} {s t : State} {act : VoiceIx → State}
    (hact : ∀ k, act k = pushAll (voicePushes (act k).mirror k rs) (s.setMirror (act k).mirror))
    (h : withVoice v s act = .next t) : PushesImage (voiceAddrs v rs) s t := by
  rcases withVoice_cases h with ⟨rfl, rfl⟩ | ⟨k, rfl, rfl⟩
  · exact ⟨[], rfl, rfl, by simp⟩
  · refine ⟨voicePushes (act k).mirror k rs, ?_, hact k, fun _ => image_of_mem_voicePushes⟩
    simp [voicePushes, voiceAddrs]

theorem voiceAddrs_nil (v : VoiceField) : voiceAddrs v [] = [] := by
  rcases voiceField_cases v with rfl | ⟨k, rfl⟩
  · rfl
  · simp [voiceAddrs]

theorem pushesImage_of_updateCtl {v : VoiceField} {new : Byte → Byte} {s t : State} (h : updateCtl v new s = .next t) :
    PushesImage (voiceAddrs v [.ctl]) s t :=
  pushesImage_of_withVoice [.ctl] (fun _ => by simp [busWrite_eq, voicePushes, Voice.image, pushAll, State.setVoice]) h

theorem pushesImage_of_isFacade {i : Instr} {s t : State} (hi : isFacade i = true) (h : exec i s = .next t) :
    PushesImage (storeAddrs i s) s t := by
  cases i with
  | busaddr _ | busdata _ | buscommit | resetchip | startclk => simp [isFacade] at hi
  | setfreq v _ | setenv v _ _ _ _ =>
    have hnone : PushesImage (voiceAddrs v []) s t := pushesImage_of_withVoice [] (fun _ => rfl) h
    rwa [voiceAddrs_nil] at hnone
  | updfreq _ =>
    exact pushesImage_of_withVoice [.flo, .fhi] (fun _ => by simp [busWrite_eq, voicePushes, Voice.image, pushAll]; rfl) h
  | setpw _ _ =>
    exact pushesImage_of_withVoice [.plo, .phi]
      (fun _ => by simp [busWrite_eq, voicePushes, Voice.image, pushAll, State.setVoice]) h
  | updenv _ =>
    exact pushesImage_of_withVoice [.ad, .sr] (fun _ => by simp [busWrite_eq, voicePushes, Voice.image, pushAll]; rfl) h
  | setshape _ m => exact pushesImage_of_updateCtl (new := (shapeByte · m)) h
  | voiceon _ => exact pushesImage_of_updateCtl (new := gateOn) h
  | voiceoff _ => exact pushesImage_of_updateCtl (new := gateOff) h
  | setsync _ en => exact pushesImage_of_updateCtl (new := syncByte en) h
  | setring _ en => exact pushesImage_of_updateCtl (new := ringByte en) h
  | setvol x =>
    rw [exec_setvol] at h
    cases h
    exact ⟨[(mvolAddr, volumeByte s.mirror.filter.modeVol x)], rfl, rfl,
      by simp [image, register, mvolAddr, Register.image]⟩

theorem chipView_buscommit (img : Addr → Byte) {s t : State} {a : Addr} (h : exec .buscommit s = .next t)
    (ha : s.lines.a = some a) : chipView img t.trace a = s.lines.d := by
  obtain ⟨x, d, hx, hd, rfl⟩ := commit_cases h
  obtain rfl : x = a := Option.some.inj (hx.symm.trans ha)
  rw [strobe_eq, hd]
  exact (chipView_cycleEvents img s.trace x d x).trans (if_pos rfl)

/-- Settles O48. -/
theorem chipViewAtStoreAddresses : Obligations.ChipViewAtStoreAddresses := by
  intro img i s t a h ha
  refine ⟨fun hi => chipView_of_pushesImage img (pushesImage_of_isFacade hi h) ha, ?_⟩
  rintro rfl
  exact chipView_buscommit img h (by simpa [storeAddrs] using ha)

/-! ### BootedFirst (R66) -/

theorem takeWhile_append_of_mem {α : Type} {p : α → Bool} {l : List α} {x : α} (hx : x ∈ l) (hpx : p x = false)
    (l' : List α) : (l ++ l').takeWhile p = l.takeWhile p := by
  rw [List.takeWhile_append, if_neg]
  intro hlen
  have hall : l.takeWhile p = l := (List.takeWhile_sublist p).eq_of_length hlen
  simpa [hpx] using List.takeWhile_eq_self_iff.1 hall x hx

/-- Events after the first CLKON end BootedFirst exactly by another CLKON. -/
theorem bootedFirst_append {t : List Event} (ht : BootedFirst t) (es : List Event) :
    BootedFirst (t ++ es) ↔ .clkOn ∉ es := by
  obtain ⟨hcount, hbefore⟩ := ht
  have hmem : Event.clkOn ∈ t := List.count_pos_iff.1 (by omega)
  have hcount' : (t ++ es).count .clkOn = 1 ↔ .clkOn ∉ es := by
    rw [List.count_append, hcount, ← List.count_eq_zero]
    omega
  rw [BootedFirst, takeWhile_append_of_mem hmem (by simp), hcount']
  exact and_iff_left hbefore

theorem bootedFirst_pushed (a : Addr) (d : Byte) (s : State) (hs : BootedFirst s.trace) :
    BootedFirst (pushed a d s).trace :=
  (bootedFirst_append hs _).2 (by simp [writeEvents])

/-- Settles O51: STARTCLK is the one command that appends a CLKON. -/
theorem bootedFirstIsKept : Obligations.BootedFirstIsKept := by
  intro i s t hs h
  cases exec_effect h with
  | address _ | data _ => exact iff_of_true ((bootedFirst_append hs _).2 (by simp)) (by simp)
  | cycle a d _ _ => exact iff_of_true ((bootedFirst_append hs _).2 (by simp [cycleEvents])) (by simp)
  | reset => exact iff_of_true ((bootedFirst_append hs _).2 (by simp [pulseEvents])) (by simp)
  | startClock => exact iff_of_false (mt (bootedFirst_append hs _).1 (by simp)) (by simp)
  | facade i m ps hi _ =>
    obtain ⟨-, hstart⟩ := ne_lifecycle_of_isFacade hi
    exact iff_of_true (pushAll_keeps bootedFirst_pushed ps (s := s.setMirror m) hs) hstart

end Sys2Proof.Machine

/-! SUPPORT. Mirror and chip together: which registers' images a command changes, the units of commands that push what they
store, and the runs made of such units (R67, R255, R257, R260). -/

namespace Sys2Proof.Machine

/-! ### The addresses whose image a command can change -/

theorem register_eq_voice (k : VoiceIx) (r : VoiceReg) : ∀ a : Addr, register a = some (.voice k r) → a = regAddr k r := by
  cases k <;> cases r <;> decide

theorem register_eq_modeVol : ∀ a : Addr, register a = some .modeVol → a = mvolAddr := by decide

/-- A change of a voice's record that keeps the bytes of all but some registers keeps the image outside their addresses. -/
theorem image_updateVoice {v : VoiceField} {g : Voice → Voice} {rs : List VoiceReg} {m : Mirror} {a : Addr}
    (hg : ∀ x r, r ∉ rs → (g x).image r = x.image r) (ha : a ∉ voiceAddrs v rs) :
    image (m.updateVoice v g) a = image m a := by
  rcases voiceField_cases v with rfl | ⟨k, rfl⟩
  · rfl
  refine Option.map_congr fun q hq => ?_
  cases q with
  | voice j r =>
    by_cases hjk : j = k
    · subst hjk
      have hr : r ∉ rs := fun hr => ha (by simpa [voiceAddrs] using ⟨r, hr, (register_eq_voice j r a hq).symm⟩)
      simpa [Register.image] using hg _ r hr
    · simp [Register.image, hjk]
  | fcLo | fcHi | resFilt | modeVol | potX | potY | osc3 | env3 => simp [Register.image]

theorem image_setModeVol {m : Mirror} {c : Byte} {a : Addr} (ha : a ≠ mvolAddr) :
    image (m.setFilter { m.filter with modeVol := c }) a = image m a := by
  refine Option.map_congr fun q hq => ?_
  cases q with
  | voice k r => simp [Register.image]
  | modeVol => exact absurd (register_eq_modeVol a hq) ha
  | fcLo | fcHi | resFilt | potX | potY | osc3 | env3 => rfl

/-- The addresses of the registers whose mirrored bytes a command stores (R25, R30). -/
def mirroredAddrs : Instr → List Addr
  | .setfreq v _ => voiceAddrs v [.flo, .fhi]
  | .setpw v _ => voiceAddrs v [.plo, .phi]
  | .setenv v _ _ _ _ => voiceAddrs v [.ad, .sr]
  | .setshape v _ | .voiceon v | .voiceoff v | .setsync v _ | .setring v _ => voiceAddrs v [.ctl]
  | .setvol _ => [mvolAddr]
  | .busaddr _ | .busdata _ | .buscommit | .resetchip | .startclk | .updfreq _ | .updenv _ => []

theorem image_storedMirror_of_notMem {i : Instr} {m : Mirror} {a : Addr} (ha : a ∉ mirroredAddrs i) :
    image (storedMirror i m) a = image m a := by
  cases i with
  | setfreq _ _ | setpw _ _ | setenv _ _ _ _ _ | setshape _ _ | voiceon _ | voiceoff _ | setsync _ _ | setring _ _ =>
    exact image_updateVoice (fun x r hr => by cases r <;> simp_all [Voice.image]) ha
  | setvol _ => exact image_setModeVol (by simpa [mirroredAddrs] using ha)
  | busaddr _ | busdata _ | buscommit | resetchip | startclk | updfreq _ | updenv _ => rfl

theorem image_exec_of_notMem {i : Instr} {s t : State} {a : Addr} (h : exec i s = .next t)
    (ha : a ∉ mirroredAddrs i) : image t.mirror a = image s.mirror a := by
  rw [exec_mirror h, image_storedMirror_of_notMem ha]

/-! ### Push units -/

/-- At every address the chip came to hold the mirror's image, or neither the chip nor the image changed. -/
def AgreesOrKeeps (img : Addr → Byte) (s t : State) : Prop :=
  ∀ a : Addr, chipView img t.trace a = image t.mirror a ∨
    (chipView img t.trace a = chipView img s.trace a ∧ image t.mirror a = image s.mirror a)

section AgreesOrKeeps

variable {img : Addr → Byte} {s t : State}

theorem agrees_at_of_agreesOrKeeps (h : AgreesOrKeeps img s t) {a : Addr}
    (hs : chipView img s.trace a = image s.mirror a) : chipView img t.trace a = image t.mirror a := by
  rcases h a with hagree | ⟨hview, himage⟩
  · exact hagree
  · rw [hview, himage, hs]

theorem consistent_of_agreesOrKeeps (h : AgreesOrKeeps img s t) (hs : Consistent img s) : Consistent img t := by
  intro a ha hknown
  rcases h a with hagree | ⟨hview, himage⟩
  · exact hagree
  · rw [hview] at hknown ⊢
    rw [himage]
    exact hs a ha hknown

/-- A façade command that pushes every register it stores. -/
theorem agreesOrKeeps_of_pushed {i : Instr} (hi : isFacade i = true) (hpush : mirroredAddrs i ⊆ storeAddrs i s)
    (h : exec i s = .next t) : AgreesOrKeeps img s t := by
  intro a
  obtain ⟨hreset, hstart⟩ := ne_lifecycle_of_isFacade hi
  by_cases ha : a ∈ storeAddrs i s
  · exact .inl (chipView_of_pushesImage img (pushesImage_of_isFacade hi h) ha)
  · exact .inr ⟨chipView_exec_of_notMem img hreset hstart h ha, image_exec_of_notMem h fun hm => ha (hpush hm)⟩

end AgreesOrKeeps

/-! ### Sequences -/

theorem execAll_cons {i : Instr} {is : List Instr} {s t : State} (h : execAll (i :: is) s = .next t) :
    ∃ u, exec i s = .next u ∧ execAll is u = .next t := by
  rw [execAll] at h
  split at h
  · exact ⟨_, ‹_›, h⟩
  · cases h
  · cases h

theorem execAll_singleton {i : Instr} {s t : State} (h : execAll [i] s = .next t) : exec i s = .next t := by
  obtain ⟨u, hu, hnil⟩ := execAll_cons h
  cases hnil
  exact hu

theorem execAll_pair {i j : Instr} {s t : State} (h : execAll [i, j] s = .next t) :
    ∃ u, exec i s = .next u ∧ exec j u = .next t := by
  obtain ⟨u, hu, hj⟩ := execAll_cons h
  exact ⟨u, hu, execAll_singleton hj⟩

/-- What every command of a sequence keeps, the sequence keeps. -/
theorem execAll_keeps {P : State → Prop} {is : List Instr}
    (hexec : ∀ i ∈ is, ∀ s t, P s → exec i s = .next t → P t) {s t : State} (hs : P s) (h : execAll is s = .next t) :
    P t := by
  induction is generalizing s with
  | nil =>
    cases h
    exact hs
  | cons i is ih =>
    obtain ⟨u, hu, his⟩ := execAll_cons h
    obtain ⟨hi, hrest⟩ := List.forall_mem_cons.1 hexec
    exact ih hrest (hi s u hs hu) his

theorem withVoice_completes (v : VoiceField) (s : State) (act : VoiceIx → State) : ∃ t, withVoice v s act = .next t := by
  rcases voiceField_cases v with rfl | ⟨k, rfl⟩
  · exact ⟨s, withVoice_three s act⟩
  · exact ⟨act k, withVoice_field k s act⟩

/-- No façade command faults (R201). -/
theorem exec_completes_of_isFacade {i : Instr} (hi : isFacade i = true) (s : State) : ∃ t, exec i s = .next t := by
  cases i with
  | busaddr _ | busdata _ | buscommit | resetchip | startclk => simp [isFacade] at hi
  | setfreq v _ | updfreq v | setpw v _ | setenv v _ _ _ _ | updenv v | setshape v _ | voiceon v | voiceoff v
  | setsync v _ | setring v _ => exact withVoice_completes v s _
  | setvol x => exact ⟨_, exec_setvol s x⟩

theorem execAll_completes_of_isFacade {is : List Instr} (his : ∀ i ∈ is, isFacade i = true) (s : State) :
    ∃ t, execAll is s = .next t := by
  induction is generalizing s with
  | nil => exact ⟨s, rfl⟩
  | cons i is ih =>
    obtain ⟨hi, hrest⟩ := List.forall_mem_cons.1 his
    obtain ⟨u, hu⟩ := exec_completes_of_isFacade hi s
    obtain ⟨t, ht⟩ := ih hrest u
    exact ⟨t, by simp only [execAll, hu, ht]⟩

/-- Units that each complete and keep a property, performed one after the other, complete and keep it. -/
theorem execAll_flatten_keeps {P : State → Prop} {units : List (List Instr)}
    (hunit : ∀ u ∈ units, ∀ s, P s → ∃ t, execAll u s = .next t ∧ P t) {s : State} (hs : P s) :
    ∃ t, execAll units.flatten s = .next t ∧ P t := by
  induction units generalizing s with
  | nil => exact ⟨s, rfl, hs⟩
  | cons u units ih =>
    obtain ⟨hu, hrest⟩ := List.forall_mem_cons.1 hunit
    obtain ⟨r, hr, hPr⟩ := hu s hs
    obtain ⟨t, ht, hPt⟩ := ih hrest hPr
    exact ⟨t, by rw [List.flatten_cons, execAll_append hr, ht], hPt⟩

/-! ### What a push unit does to mirror and chip -/

/-- The three shapes of a push unit (R260). -/
theorem isPushUnit_cases {u : List Instr} (h : isPushUnit u = true) :
    (∃ v f, u = [.setfreq v f, .updfreq v]) ∨
    (∃ v atk dec sus rel, u = [.setenv v atk dec sus rel, .updenv v]) ∨
    ∃ i, u = [i] ∧ isFacade i = true ∧ ∀ s, mirroredAddrs i ⊆ storeAddrs i s := by
  unfold isPushUnit at h
  split at h
  · exact .inl ⟨_, _, by rw [beq_iff_eq.1 h]⟩
  · exact .inr (.inl ⟨_, _, _, _, _, by rw [beq_iff_eq.1 h]⟩)
  · cases h
  · cases h
  · rename_i i hfreq henv
    refine .inr (.inr ⟨i, rfl, h, fun s => ?_⟩)
    cases i with
    | setfreq v f => exact absurd rfl (hfreq v f)
    | setenv v a d u r => exact absurd rfl (henv v a d u r)
    | busaddr _ | busdata _ | buscommit | resetchip | startclk | updfreq _ | updenv _ => exact List.nil_subset _
    | setpw _ _ | setshape _ _ | voiceon _ | voiceoff _ | setsync _ _ | setring _ _ | setvol _ =>
      exact List.Subset.refl _
  · cases h

theorem isFacade_of_mem_pushUnit {u : List Instr} (h : isPushUnit u = true) : ∀ i ∈ u, isFacade i = true := by
  rcases isPushUnit_cases h with ⟨v, f, rfl⟩ | ⟨v, atk, dec, sus, rel, rfl⟩ | ⟨i, rfl, hi, -⟩
  · simp [isFacade]
  · simp [isFacade]
  · simpa using hi

/-- A mutate command that only stores, then the push of exactly the registers it stored. -/
theorem agreesOrKeeps_of_mutate_push {img : Addr → Byte} {i j : Instr} {s t : State} (hi : isFacade i = true)
    (hj : isFacade j = true) (hstores : storeAddrs i s = []) (hmirrored : mirroredAddrs j = [])
    (hpush : ∀ u, storeAddrs j u = mirroredAddrs i) (h : execAll [i, j] s = .next t) : AgreesOrKeeps img s t := by
  obtain ⟨u, hu, ht⟩ := execAll_pair h
  obtain ⟨hreset, hstart⟩ := ne_lifecycle_of_isFacade hi
  have hfirst : ∀ a, chipView img u.trace a = chipView img s.trace a := fun a =>
    chipView_exec_of_notMem img hreset hstart hu (by simp [hstores])
  intro a
  rcases agreesOrKeeps_of_pushed hj (by simp [hmirrored]) ht a with hagree | ⟨hview, himage⟩
  · exact .inl hagree
  · by_cases ha : a ∈ mirroredAddrs i
    · exact .inl (chipView_of_pushesImage img (pushesImage_of_isFacade hj ht) (hpush u ▸ ha))
    · exact .inr ⟨hview.trans (hfirst a), himage.trans (image_exec_of_notMem hu ha)⟩

/-- A push unit brings the chip to the image wherever it changes either (R67). -/
theorem agreesOrKeeps_of_pushUnit (img : Addr → Byte) {u : List Instr} {s t : State} (hu : isPushUnit u = true)
    (h : execAll u s = .next t) : AgreesOrKeeps img s t := by
  rcases isPushUnit_cases hu with ⟨v, f, rfl⟩ | ⟨v, atk, dec, sus, rel, rfl⟩ | ⟨i, rfl, hi, hpush⟩
  · exact agreesOrKeeps_of_mutate_push rfl rfl rfl rfl (fun _ => rfl) h
  · exact agreesOrKeeps_of_mutate_push rfl rfl rfl rfl (fun _ => rfl) h
  · exact agreesOrKeeps_of_pushed hi (hpush s) (execAll_singleton h)

/-! ### The state STARTCLK leaves from block reset (R255) -/

theorem image_zero : ∀ a : Addr, a.toNat ≤ 24 → image Mirror.zero a = some 0#8 := by decide

theorem startclk_reset : ∃ s : State, exec .startclk State.reset = .next s ∧ s.mirror = Mirror.zero ∧
    s.lines.cs = none ∧ BootedFirst s.trace ∧ ∀ img a, chipView img s.trace a = some (img a) :=
  ⟨_, exec_startclk State.reset, rfl, rfl, by decide, fun img a => chipView_pulseEvents img [.clkOn] a⟩

/-! ### Consistency (R67) -/

theorem not_consistent_of_image_ne {img : Addr → Byte} {s : State} {a : Addr} {d : Byte} (ha : a.toNat ≤ 24)
    (hview : chipView img s.trace a = some d) (himage : image s.mirror a ≠ some d) : ¬Consistent img s := by
  intro hs
  have heq := hs a ha (by simp [hview])
  exact himage (heq.symm.trans hview)

/-- A drive of the address or data lines changes neither the chip nor the mirror. -/
theorem agreesOrKeeps_of_drive (img : Addr → Byte) {i : Instr} {s t : State}
    (hi : (∃ a, i = .busaddr a) ∨ ∃ d, i = .busdata d) (h : exec i s = .next t) : AgreesOrKeeps img s t := by
  obtain ⟨hstores, hmirrored, hreset, hstart⟩ :
      storeAddrs i s = [] ∧ mirroredAddrs i = [] ∧ i ≠ .resetchip ∧ i ≠ .startclk := by
    rcases hi with ⟨x, rfl⟩ | ⟨d, rfl⟩ <;> simp [storeAddrs, mirroredAddrs]
  exact fun a => .inr ⟨chipView_exec_of_notMem img hreset hstart h (by simp [hstores]),
    image_exec_of_notMem h (by simp [hmirrored])⟩

/-- A raw write of a byte other than the image to a register 0-24 breaks consistency. -/
theorem not_consistent_of_raw_write {img : Addr → Byte} {s t : State} {a : Addr} {d : Byte}
    (h : exec .buscommit s = .next t) (ha : s.lines.a = some a) (hd : s.lines.d = some d) (hle : a.toNat ≤ 24)
    (himage : image s.mirror a ≠ some d) : ¬Consistent img t := by
  refine not_consistent_of_image_ne hle ((chipView_buscommit img h ha).trans hd) ?_
  rwa [exec_mirror h]

/-- After STARTCLK with a zero post-reset image, SETFREQ of 1 leaves FLO's image at 1 and SETENV with release 1 leaves SR's
image at 1, while the chip holds 0 in both. -/
theorem mutate_alone_can_break : ∃ (img : Addr → Byte) (s t u : State), Consistent img s ∧
    exec (.setfreq 0#2 1#16) s = .next t ∧ ¬Consistent img t ∧
    exec (.setenv 0#2 0#4 0#4 0#4 1#4) s = .next u ∧ ¬Consistent img u := by
  obtain ⟨s, -, hmirror, -, -, hview⟩ := startclk_reset
  refine ⟨fun _ => 0#8, s, _, _, ?_, exec_setfreq .zero s 1#16, ?_, exec_setenv .zero s 0#4 0#4 0#4 1#4, ?_⟩
  · intro a ha _
    rw [hview, hmirror, image_zero a ha]
  · refine not_consistent_of_image_ne (a := 0#5) (by decide) (hview _ _) ?_
    simp only [setVoice_mirror, hmirror]
    decide
  · refine not_consistent_of_image_ne (a := 6#5) (by decide) (hview _ _) ?_
    simp only [setVoice_mirror, hmirror]
    decide

/-- Settles O49. -/
theorem commandsEffectOnConsistency : Obligations.CommandsEffectOnConsistency := by
  refine ⟨fun img i s t h hs hi => ?_, fun img v f s t hs h => ?_, fun img v atk dec sus rel s t hs h => ?_,
    fun img s t a d h ha hd hle himage => not_consistent_of_raw_write h ha hd hle himage, mutate_alone_can_break⟩
  · rcases hi with hunit | hdrive
    · exact consistent_of_agreesOrKeeps (agreesOrKeeps_of_pushUnit img hunit (by simp only [execAll, h])) hs
    · exact consistent_of_agreesOrKeeps (agreesOrKeeps_of_drive img hdrive h) hs
  · exact consistent_of_agreesOrKeeps (agreesOrKeeps_of_pushUnit img (by simp [isPushUnit]) h) hs
  · exact consistent_of_agreesOrKeeps (agreesOrKeeps_of_pushUnit img (by simp [isPushUnit]) h) hs

/-! ### Booted façade runs (R255, R256, R257, R260) -/

/-- What a booted run of push units keeps. -/
def BootedInAgreement (init : InitLines) (img : Addr → Byte) (s : State) : Prop :=
  BootedFirst s.trace ∧ ChipAgrees init img s

theorem select_high_of_isFacade {init : InitLines} {i : Instr} (hi : isFacade i = true) {s t : State}
    (hs : csLevel init s = .high) (h : exec i s = .next t) : csLevel init t = .high := by
  obtain ⟨m, ps, rfl, -⟩ := facade_effect hi h
  exact pushAll_keeps (P := fun u => csLevel init u = .high) (fun _ _ _ _ => rfl) ps (s := s.setMirror m) hs

theorem pushUnit_keeps_bootedInAgreement {init : InitLines} {img : Addr → Byte} {u : List Instr}
    (hu : isPushUnit u = true) (s : State) (hs : BootedInAgreement init img s) :
    ∃ t, execAll u s = .next t ∧ BootedInAgreement init img t := by
  obtain ⟨hboot, hselect, hagree⟩ := hs
  have hfacade := isFacade_of_mem_pushUnit hu
  obtain ⟨t, ht⟩ := execAll_completes_of_isFacade hfacade s
  refine ⟨t, ht, ?_, ?_, fun a ha => agrees_at_of_agreesOrKeeps (agreesOrKeeps_of_pushUnit img hu ht) (hagree a ha)⟩
  · exact execAll_keeps (P := fun r => BootedFirst r.trace)
      (fun i hi r r' hr h => (bootedFirstIsKept i r r' hr h).2 (ne_lifecycle_of_isFacade (hfacade i hi)).2) hboot ht
  · exact execAll_keeps (P := fun r => csLevel init r = .high)
      (fun i hi _ _ hr h => select_high_of_isFacade (hfacade i hi) hr h) hselect ht

/-- Settles O52: STARTCLK brings chip and mirror into agreement, and every push unit keeps them there. -/
theorem bootedFacadeRunsKeepTheChipInAgreement : Obligations.BootedFacadeRunsKeepTheChipInAgreement := by
  intro init img units hlaunch himg hunits
  obtain ⟨s, hstart, hmirror, hcs, hboot, hview⟩ := startclk_reset
  have hbooted : BootedInAgreement init img s := by
    refine ⟨hboot, by simpa [csLevel, hcs] using hlaunch, fun a ha => ?_⟩
    rw [hview, himg a ha, hmirror, image_zero a ha]
  obtain ⟨t, ht, hfinal⟩ :=
    execAll_flatten_keeps (fun u hu => pushUnit_keeps_bootedInAgreement (hunits u hu)) hbooted
  exact ⟨t, by simp only [execAll, hstart, ht], hfinal⟩

end Sys2Proof.Machine

/-! SUPPORT. The command word: its fields, the rows of the opcode map, and the two round trips between words and commands
(R80, R81, R84, R86). -/

namespace Sys2Proof

/-! ### A field put at a bit of a word, read back and masked (R80, R83) -/

/-- The ones of an `n`-bit field at bit `lo`. -/
def fieldMask (lo n : Nat) : Word := put lo (BitVec.allOnes n)

section Field

variable {n m lo lo' : Nat}

theorem getLsbD_put (lo : Nat) (x : BitVec n) {i : Nat} (hi : i < 32) :
    (put lo x).getLsbD i = (decide (lo ≤ i) && x.getLsbD (i - lo)) := by
  by_cases h : lo ≤ i <;> simp [put, h, hi]

/-- Masking a word with a field's ones leaves that field, in its place. -/
theorem and_fieldMask (w : Word) (lo n : Nat) : w &&& fieldMask lo n = put lo (w.extractLsb' lo n) := by
  refine BitVec.eq_of_getLsbD_eq fun i hi => ?_
  rw [BitVec.getLsbD_and, fieldMask, getLsbD_put lo _ hi, getLsbD_put lo _ hi]
  by_cases h : lo ≤ i
  · simp [h, Bool.and_comm]
  · simp [h]

theorem put_and_fieldMask (lo : Nat) (x : BitVec n) : put lo x &&& fieldMask lo n = put lo x := by
  refine BitVec.eq_of_getLsbD_eq fun i hi => ?_
  rw [BitVec.getLsbD_and, fieldMask, getLsbD_put lo _ hi, getLsbD_put lo _ hi]
  by_cases h : i - lo < n
  · simp [h, Bool.and_comm]
  · simp [BitVec.getLsbD_of_ge x (i - lo) (by omega)]

/-- A mask that holds all of a field's bits. -/
theorem put_and_of_keeps (x : BitVec n) {mask : Word} (h : fieldMask lo n &&& mask = fieldMask lo n) :
    put lo x &&& mask = put lo x := by
  rw [← put_and_fieldMask lo x, BitVec.and_assoc, h]

/-- A mask that holds none of a field's bits. -/
theorem put_and_of_clears (x : BitVec n) {mask : Word} (h : fieldMask lo n &&& mask = 0#32) :
    put lo x &&& mask = 0#32 := by
  rw [← put_and_fieldMask lo x, BitVec.and_assoc, h, BitVec.and_zero]

theorem extractLsb'_put (x : BitVec n) (h : lo + n ≤ 32) : (put lo x).extractLsb' lo n = x := by
  refine BitVec.eq_of_getLsbD_eq fun i hi => ?_
  rw [BitVec.getLsbD_extractLsb', getLsbD_put lo x (by omega)]
  simp [hi]

theorem extractLsb'_put_of_disjoint (x : BitVec n) (hm : lo' + m ≤ 32) (h : lo' + m ≤ lo ∨ lo + n ≤ lo') :
    (put lo x).extractLsb' lo' m = 0#m := by
  refine BitVec.eq_of_getLsbD_eq fun i hi => ?_
  rw [BitVec.getLsbD_extractLsb', getLsbD_put lo x (by omega)]
  rcases h with h | h
  · simp [show ¬lo ≤ lo' + i by omega]
  · simp [BitVec.getLsbD_of_ge x (lo' + i - lo) (by omega)]

theorem put_inj {x y : BitVec n} (h : lo + n ≤ 32) : put lo x = put lo y ↔ x = y := by
  refine ⟨fun hxy => ?_, fun hxy => by rw [hxy]⟩
  rw [← extractLsb'_put x h, hxy, extractLsb'_put y h]

/-- A field has a value exactly when the masked word is that value, in its place. -/
theorem extractLsb'_eq_iff {x : BitVec n} (w : Word) (h : lo + n ≤ 32) :
    w.extractLsb' lo n = x ↔ w &&& fieldMask lo n = put lo x := by
  rw [and_fieldMask, put_inj h]

theorem enField_or (w w' : Word) : enField (w ||| w') = (enField w || enField w') := by simp [enField]

theorem enField_put_ofBool (en : Bool) : enField (put 0 (BitVec.ofBool en)) = en := by
  rw [enField, getLsbD_put 0 _ (by decide)]
  simp

theorem enField_put_of_pos (x : BitVec n) (h : 0 < lo) : enField (put lo x) = false := by
  rw [enField, getLsbD_put lo x (by decide)]
  simp [show lo ≠ 0 by omega]

end Field

/-- The enable operand is the one-bit field 0. -/
theorem ofBool_enField (w : Word) : BitVec.ofBool (enField w) = w.extractLsb' 0 1 := by
  refine BitVec.eq_of_getLsbD_eq fun i hi => ?_
  obtain rfl : i = 0 := by omega
  simp [enField]

/-! ### The rows of the opcode map (R84) -/

/-- Two rows disagree on some bit that both their masks keep. -/
theorem opcodeMap_pairwise_conflict :
    opcodeMap.Pairwise fun r q => r.pattern &&& q.mask ≠ q.pattern &&& r.mask := by decide

theorem not_both_select {r q : Row} (h : r.pattern &&& q.mask ≠ q.pattern &&& r.mask) (w : Word) :
    ¬(w &&& r.mask = r.pattern ∧ w &&& q.mask = q.pattern) := by
  rintro ⟨hr, hq⟩
  apply h
  rw [← hr, ← hq, BitVec.and_assoc, BitVec.and_assoc, BitVec.and_comm r.mask]

theorem opcodeMap_pairwise_disjoint :
    opcodeMap.Pairwise fun r q => ∀ w : Word, ¬(w &&& r.mask = r.pattern ∧ w &&& q.mask = q.pattern) :=
  opcodeMap_pairwise_conflict.imp fun h => not_both_select h

theorem eq_of_both_select {r q : Row} {w : Word} (hr : r ∈ opcodeMap) (hq : q ∈ opcodeMap)
    (hrw : w &&& r.mask = r.pattern) (hqw : w &&& q.mask = q.pattern) : r = q := by
  have hsymm : Std.Symm fun r q : Row => ∀ w : Word, ¬(w &&& r.mask = r.pattern ∧ w &&& q.mask = q.pattern) :=
    ⟨fun _ _ h v hv => h v hv.symm⟩
  by_contra hne
  exact opcodeMap_pairwise_disjoint.forall hr hq hne w ⟨hrw, hqw⟩

/-- The first row that selects a word is the only one, so any row that selects it gives its command. -/
theorem decode_of_row {r : Row} {w : Word} (hr : r ∈ opcodeMap) (hrw : w &&& r.mask = r.pattern) :
    decode w = some (r.instr w) := by
  unfold decode
  cases hfind : opcodeMap.find? (·.selects w) with
  | none => simpa [Row.selects, hrw] using List.find?_eq_none.1 hfind r hr
  | some q =>
    have hqw : w &&& q.mask = q.pattern := by simpa [Row.selects] using List.find?_some hfind
    rw [eq_of_both_select hr (List.mem_of_find?_eq_some hfind) hrw hqw, Option.map_some]

theorem decode_eq_some_iff (w : Word) (i : Instr) :
    decode w = some i ↔ ∃ r ∈ opcodeMap, w &&& r.mask = r.pattern ∧ r.instr w = i := by
  constructor
  · intro h
    obtain ⟨r, hfind, rfl⟩ := Option.map_eq_some_iff.1 h
    exact ⟨r, List.mem_of_find?_eq_some hfind, by simpa [Row.selects] using List.find?_some hfind, rfl⟩
  · rintro ⟨r, hr, hrw, rfl⟩
    exact decode_of_row hr hrw

/-- Settles O3: rows that disagree on a bit both masks keep select no common word. -/
theorem opcodeMapRowsAreDisjoint : Obligations.OpcodeMapRowsAreDisjoint :=
  ⟨rfl, fun _ _ hr hrw => decode_of_row hr hrw, opcodeMap_pairwise_disjoint⟩

/-! ### From a word to its command and back -/

/-- A constant part of a word moves before the masked part. -/
theorem or_and_or (p q w m : Word) : p ||| (w &&& m ||| q) = p ||| q ||| w &&& m := by
  rw [BitVec.or_comm (w &&& m), BitVec.or_assoc]

/-- Each operand of a row's command goes back to the bits it was read from: the word of the command is the row's match, and
the given word outside the row's mask. -/
theorem encode_instr {r : Row} (hr : r ∈ opcodeMap) (w : Word) :
    encode (r.instr w) = r.pattern ||| w &&& ~~~r.mask := by
  simp only [opcodeMap, List.mem_cons, List.not_mem_nil, or_false] at hr
  rcases hr with rfl | rfl | rfl | rfl | rfl | rfl | rfl | rfl | rfl | rfl | rfl | rfl | rfl | rfl | rfl | rfl
  all_goals
    simp only [encode, addrField, imm8Field, imm16Field, voiceField, atkField, decField, susField, relField,
      ofBool_enField, ← and_fieldMask]
    simp [fieldMask, put, BitVec.or_assoc, ← BitVec.and_or_distrib_left, or_and_or]

/-- Settles O2: the row that selected the word fixes the bits of its mask, its command's operands the others. -/
theorem encodeDecodeRoundTrip : Obligations.EncodeDecodeRoundTrip := by
  intro w i h
  obtain ⟨r, hr, hrw, rfl⟩ := (decode_eq_some_iff w i).1 h
  calc encode (r.instr w)
    _ = w &&& r.mask ||| w &&& ~~~r.mask := by rw [encode_instr hr, hrw]
    _ = w := by rw [← BitVec.and_or_distrib_left, BitVec.or_not_self, BitVec.and_allOnes]

/-! ### From a command to its word and back -/

/-- The place of a command's row in the opcode map. -/
def Instr.rowNumber : Instr → Fin 16
  | .busaddr _ => 0
  | .busdata _ => 1
  | .buscommit => 2
  | .resetchip => 3
  | .startclk => 4
  | .setfreq _ _ => 5
  | .updfreq _ => 6
  | .setpw _ _ => 7
  | .setenv _ _ _ _ _ => 8
  | .updenv _ => 9
  | .setshape _ _ => 10
  | .voiceon _ => 11
  | .voiceoff _ => 12
  | .setsync _ _ => 13
  | .setring _ _ => 14
  | .setvol _ => 15

/-- The row of the opcode map that a command's word selects. -/
def Instr.row (i : Instr) : Row := opcodeMap.get i.rowNumber

theorem row_mem_opcodeMap (i : Instr) : i.row ∈ opcodeMap := List.get_mem _ _

/-- A row's mask keeps the opcode of its command's word and clears the operands. -/
theorem encode_selects_row (i : Instr) : encode i &&& i.row.mask = i.row.pattern := by
  cases i
  all_goals
    simp (disch := decide) [encode, Instr.row, Instr.rowNumber, opcodeMap, BitVec.and_or_distrib_right,
      put_and_of_keeps, put_and_of_clears]
    rfl

/-- The fields of a format do not overlap, so each operand reads back as it was put. -/
theorem row_instr_encode (i : Instr) : i.row.instr (encode i) = i := by
  cases i
  all_goals
    simp (disch := decide) [encode, Instr.row, Instr.rowNumber, opcodeMap, addrField, imm8Field, imm16Field, voiceField,
      atkField, decField, susField, relField, BitVec.extractLsb'_or, extractLsb'_put, extractLsb'_put_of_disjoint,
      enField_or, enField_put_ofBool, enField_put_of_pos]

/-- Settles O1: a command's word selects the command's row, which reads its operands back. -/
theorem decodeEncodeRoundTrip : Obligations.DecodeEncodeRoundTrip := by
  intro i
  rw [decode_of_row (row_mem_opcodeMap i) (encode_selects_row i), row_instr_encode]

end Sys2Proof

/-! SUPPORT. The decoder by formats: for words of a row's opcode, selection is a matter of the bits below the opcode
(R81, R85, R86, R88). -/

namespace Sys2Proof

theorem opcode_cases (op : BitVec 4) :
    op = 0x0#4 ∨ op = 0x1#4 ∨ op = 0x2#4 ∨ op = 0x3#4 ∨ op = 0x4#4 ∨ op = 0x5#4 ∨ op = 0x6#4 ∨ op = 0x7#4 ∨
    op = 0x8#4 ∨ op = 0x9#4 ∨ op = 0xA#4 ∨ op = 0xB#4 ∨ op = 0xC#4 ∨ op = 0xD#4 ∨ op = 0xE#4 ∨ op = 0xF#4 := by
  revert op
  decide

/-- With the opcodes equal, mask and match have to agree only below the opcode. -/
theorem selects_iff {w mask pattern : Word} (hop : w.extractLsb' 28 4 = pattern.extractLsb' 28 4)
    (hmask : mask.extractLsb' 28 4 = 0xF#4) :
    w &&& mask = pattern ↔ w &&& (mask &&& 0x0FFFFFFF#32) = pattern &&& 0x0FFFFFFF#32 := by
  have hsplit (x : Word) : x &&& fieldMask 28 4 ||| x &&& 0x0FFFFFFF#32 = x := by
    rw [← BitVec.and_or_distrib_left]
    exact BitVec.and_allOnes
  have hopcode : w &&& (mask &&& fieldMask 28 4) = pattern &&& fieldMask 28 4 := by
    rw [and_fieldMask mask, hmask, and_fieldMask pattern, ← hop, ← and_fieldMask w]
    rfl
  constructor
  · intro h
    rw [← BitVec.and_assoc, h]
  · intro h
    calc w &&& mask
      _ = w &&& mask &&& fieldMask 28 4 ||| w &&& mask &&& 0x0FFFFFFF#32 := (hsplit _).symm
      _ = pattern &&& fieldMask 28 4 ||| pattern &&& 0x0FFFFFFF#32 := by
        rw [BitVec.and_assoc, BitVec.and_assoc, h, hopcode]
      _ = pattern := hsplit pattern

/-- Bits 25:0 are a one-bit field at bit 0 exactly when bits 25:1 are zero and bit 0 is that field. -/
theorem and_bits25to0_eq_put_iff (w : Word) (b : BitVec 1) :
    w &&& 0x03FFFFFF#32 = put 0 b ↔ w &&& 0x03FFFFFE#32 = 0#32 ∧ w.extractLsb' 0 1 = b := by
  rw [extractLsb'_eq_iff w (by decide)]
  constructor
  · intro h
    constructor
    · calc w &&& 0x03FFFFFE#32
        _ = w &&& 0x03FFFFFF#32 &&& 0x03FFFFFE#32 := by rw [BitVec.and_assoc]; rfl
        _ = 0#32 := by rw [h, put_and_of_clears b (by decide)]
    · calc w &&& fieldMask 0 1
        _ = w &&& 0x03FFFFFF#32 &&& fieldMask 0 1 := by rw [BitVec.and_assoc]; rfl
        _ = put 0 b := by rw [h, put_and_fieldMask]
  · rintro ⟨h, hb⟩
    calc w &&& 0x03FFFFFF#32
      _ = w &&& 0x03FFFFFE#32 ||| w &&& fieldMask 0 1 := by rw [← BitVec.and_or_distrib_left]; rfl
      _ = put 0 b := by rw [h, hb, BitVec.zero_or]

/-- The two rows of opcode 0xC together: format F-VG, whose bit 0 is VOICEON's or VOICEOFF's. -/
theorem decode_opC_format {w : Word} (h : w.extractLsb' 28 4 = 0xC#4) :
    decode w = if w &&& 0x03FFFFFE#32 = 0#32 then
      some (if w.extractLsb' 0 1 = 1#1 then .voiceon (voiceField w) else .voiceoff (voiceField w)) else none := by
  have hon : w &&& 0xF3FFFFFF#32 = 0xC0000001#32 ↔ _ := (selects_iff h rfl).trans (and_bits25to0_eq_put_iff w 1#1)
  have hoff : w &&& 0xF3FFFFFF#32 = 0xC0000000#32 ↔ _ := (selects_iff h rfl).trans (and_bits25to0_eq_put_iff w 0#1)
  rw [decode_opC h]
  simp only [hon, hoff]
  rcases BitVec.eq_zero_or_eq_one (w.extractLsb' 0 1) with hb | hb <;> simp [hb]

/-- R88: below its opcode a row asks for nothing but its format's zeros, so these alone reserve a word. -/
theorem decode_eq_none_iff (w : Word) : decode w = none ↔
    w.extractLsb' 28 4 = 0#4 ∨ w &&& mustBeZero (w.extractLsb' 28 4) ≠ 0#32 := by
  rcases opcode_cases (w.extractLsb' 28 4) with h | h | h | h | h | h | h | h | h | h | h | h | h | h | h | h
  all_goals
    simp [h, decode_op0, decode_op1, decode_op2, decode_op3, decode_op4, decode_op5, decode_op6, decode_op7, decode_op8,
      decode_op9, decode_opA, decode_opB, decode_opC_format, decode_opD, decode_opE, decode_opF, selects_iff, mustBeZero]

/-- R86: opcode by opcode, the procedure's checks of fields are the row's check by mask. The procedure checks bits 25:0 of
the format F-V (opcodes 0x7 and 0xA) in two parts. -/
theorem decode_eq_decodeWrittenOut (w : Word) : decode w = decodeWrittenOut w := by
  have hparts : w &&& 0x03FFFFFF#32 = 0#32 ↔ w &&& 0x03FFFFFE#32 = 0#32 ∧ w &&& 1#32 = 0#32 :=
    (and_bits25to0_eq_put_iff w 0#1).trans (and_congr_right fun _ => extractLsb'_eq_iff w (by decide))
  rcases opcode_cases (w.extractLsb' 28 4) with h | h | h | h | h | h | h | h | h | h | h | h | h | h | h | h
  all_goals
    simp [h, decode_op0, decode_op1, decode_op2, decode_op3, decode_op4, decode_op5, decode_op6, decode_op7, decode_op8,
      decode_op9, decode_opA, decode_opB, decode_opC_format, decode_opD, decode_opE, decode_opF, selects_iff,
      decodeWrittenOut, opField, extractLsb'_eq_iff, fieldMask, put]
  case _ | _ => simp only [hparts, ite_and]

/-- Settles O4. -/
theorem decodeIsTheWrittenOutProcedure : Obligations.DecodeIsTheWrittenOutProcedure :=
  ⟨decode_eq_some_iff, decode_eq_decodeWrittenOut⟩

end Sys2Proof

/-! SUPPORT. What a reserved word, an out-of-range voice field and the assembler's pseudo-instructions do (R82, R88, R90). -/

namespace Sys2Proof.Machine

/-! ### Reserved words (R88) -/

theorem step_of_reserved {s : State} {w : Word} {ws : List Word} (hs : Unmarked s) (hp : s.port = w :: ws)
    (hd : decode w = none) : step s = .refused .reservedWord := by
  simp [step, (stopped_eq_none s).2 hs, takeWord_cons s w ws hp, hd, refuse]

/-- Settles O6. -/
theorem reservedWordsAreRefused : Obligations.ReservedWordsAreRefused := by
  refine ⟨decode_eq_none_iff, fun s w ws hs hp hd => ?_⟩
  have hstep : step s = .refused .reservedWord := step_of_reserved hs hp hd
  exact ⟨hstep, by rw [advance, hstep]; rfl⟩

/-! ### The voice field 3 (R82) -/

theorem exec_of_voiceOperand_three {i : Instr} (h : voiceOperand i = some 3#2) (s : State) : exec i s = .next s := by
  cases i with
  | busaddr _ | busdata _ | buscommit | resetchip | startclk | setvol _ => cases h
  | setfreq _ _ | updfreq _ | setpw _ _ | setenv _ _ _ _ _ | updenv _ | setshape _ _ | voiceon _ | voiceoff _
  | setsync _ _ | setring _ _ =>
    cases h
    rfl

/-- Settles O18: the word is the command's own. -/
theorem outOfRangeVoiceIsANoOp : Obligations.OutOfRangeVoiceIsANoOp :=
  ⟨rfl, rfl, rfl, fun i s h => ⟨⟨encode i, decodeEncodeRoundTrip i⟩, exec_of_voiceOperand_three h s⟩⟩

/-! ### Pseudo-instructions (R90) -/

theorem execAll_pseudoWrite (a : Addr) (d : Byte) (s : State) : execAll (pseudoWrite a d) s = .next (pushed a d s) := by
  have hcommit : exec .buscommit (driveD d (driveA a s)) = .next (pushed a d s) := by
    rw [exec_buscommit, commit_driveD_driveA, busWrite_eq]
  have haddr : exec (.busaddr a) s = .next (driveA a s) := rfl
  have hdata : exec (.busdata d) (driveA a s) = .next (driveD d (driveA a s)) := rfl
  simp only [pseudoWrite, execAll, haddr, hdata, hcommit]

/-- Settles O55: an operand within the width of its field is in the range the assembler checks. -/
theorem pseudoInstructionsExpand : Obligations.PseudoInstructionsExpand := by
  refine ⟨fun a d => ?_, fun v f => ?_, fun v atk dec sus rel => ?_, execAll_pseudoWrite⟩
  · have hrange : a.toNat ≤ 31 ∧ d.toNat ≤ 255 := by omega
    simp [assemble, pseudoWrite, hrange]
  · have hrange : v.toNat ≤ 3 ∧ f.toNat ≤ 65535 := by omega
    simp [assemble, pseudoFreq, hrange]
  · have hrange : v.toNat ≤ 3 ∧ atk.toNat ≤ 15 ∧ dec.toNat ≤ 15 ∧ sus.toNat ≤ 15 ∧ rel.toNat ≤ 15 := by omega
    simp [assemble, pseudoEnv, hrange]

end Sys2Proof.Machine

/-! SUPPORT. The bus-cycle engine: the words its commands are decoded from, what they leave, and the one fault
(R100, R101, R102, R201). -/

namespace Sys2Proof.Machine

/-! ### Words by their fields (R81, R85) -/

/-- A word with the opcode of a command's row, and zeros in the one must-be-zero field of its format, decodes to that
row's command. -/
theorem decode_of_fields (i : Instr) (op : BitVec 4) (lo n : Nat) {w : Word} (hpattern : i.row.pattern = put 28 op)
    (hmask : i.row.mask = fieldMask 28 4 ||| fieldMask lo n) (hop : w.extractLsb' 28 4 = op)
    (hzero : w.extractLsb' lo n = 0#n) : decode w = some (i.row.instr w) := by
  have hselects : w &&& i.row.mask = i.row.pattern := by
    rw [hmask, BitVec.and_or_distrib_left, and_fieldMask, and_fieldMask, hop, hzero, hpattern]
    simp [put]
  exact decode_of_row (row_mem_opcodeMap i) hselects

/-! ### The engine's commands -/

/-- Settles O13: format F-A has the must-be-zero field 27:5. -/
theorem busaddrDrivesTheAddressLines : Obligations.BusaddrDrivesTheAddressLines :=
  ⟨fun w => decode_of_fields (.busaddr (addrField w)) 0x1#4 5 23 rfl rfl, exec_busaddr⟩

/-- Settles O14: format F-B has the must-be-zero field 27:8. -/
theorem busdataDrivesTheDataLines : Obligations.BusdataDrivesTheDataLines :=
  ⟨fun w => decode_of_fields (.busdata (imm8Field w)) 0x2#4 8 20 rfl rfl, exec_busdata⟩

/-- Settles O15: the held pair goes through one write cycle; without a pair the command faults, and a fault leaves its
mark alone. -/
theorem buscommitIsOneWriteCycle : Obligations.BuscommitIsOneWriteCycle := by
  refine ⟨decodeEncodeRoundTrip .buscommit, fun a d s ha hd => ?_, fun s hundriven => ?_⟩
  · rw [exec_buscommit, commit_of_driven a d s ha hd, strobe_eq]
    rfl
  · have hfault : exec .buscommit s = .fault .undrivenBus := commit_of_undriven s hundriven
    exact ⟨hfault, by rw [hfault]; rfl⟩

/-! ### Completion (R201) -/

theorem undriven_or_holds_pair (l : Lines) : (l.a = none ∨ l.d = none) ∨ ∃ a d, l.a = some a ∧ l.d = some d := by
  cases ha : l.a with
  | none => exact .inl (.inl rfl)
  | some a =>
    cases hd : l.d with
    | none => exact .inl (.inr rfl)
    | some d => exact .inr ⟨a, d, rfl, rfl⟩

/-- Settles O10: the engine's drives and the lifecycle commands have a next state outright, the façade commands do
nothing or push, and BUSCOMMIT turns on whether the lines hold a pair. -/
theorem everyCommandCompletesUnlessUndriven : Obligations.EveryCommandCompletesUnlessUndriven := by
  intro i s
  cases i with
  | busaddr a => exact .inl ⟨_, exec_busaddr a s⟩
  | busdata d => exact .inl ⟨_, exec_busdata d s⟩
  | buscommit =>
    rcases undriven_or_holds_pair s.lines with hundriven | ⟨a, d, ha, hd⟩
    · exact .inr ⟨rfl, hundriven, commit_of_undriven s hundriven⟩
    · exact .inl ⟨_, commit_of_driven a d s ha hd⟩
  | resetchip => exact .inl ⟨_, exec_resetchip s⟩
  | startclk => exact .inl ⟨_, exec_startclk s⟩
  | setfreq _ _ | updfreq _ | setpw _ _ | setenv _ _ _ _ _ | updenv _ | setshape _ _ | voiceon _ | voiceoff _
  | setsync _ _ | setring _ _ | setvol _ => exact .inl (exec_completes_of_isFacade rfl s)

end Sys2Proof.Machine

/-! SUPPORT. The lifecycle commands: the reset pulse and the chip it leaves, the parts of the state they keep, and the
phase, which no other command reads or writes (R110, R112, R114, R117). -/

namespace Sys2Proof.Machine

/-! ### The reset pulse -/

/-- Settles O16: the pulse puts the chip in its post-reset image whatever the trace before it. -/
theorem resetchipPulsesTheResetLine : Obligations.ResetchipPulsesTheResetLine :=
  ⟨decodeEncodeRoundTrip .resetchip,
    fun s => ⟨_, exec_resetchip s, rfl, fun img a => chipView_pulseEvents img s.trace a⟩⟩

/-- The chip view after CLKON and a reset pulse. -/
theorem chipView_clkOn_pulseEvents (img : Addr → Byte) (t : List Event) (a : Addr) :
    chipView img (t ++ .clkOn :: pulseEvents) a = some (img a) := by
  rw [List.append_cons, chipView_pulseEvents]

/-- Settles O17: the pulse after CLKON puts the chip in its post-reset image. -/
theorem startclkStartsTheClockAndResets : Obligations.StartclkStartsTheClockAndResets :=
  ⟨decodeEncodeRoundTrip .startclk,
    fun s => ⟨_, exec_startclk s, rfl, fun img a => chipView_clkOn_pulseEvents img s.trace a⟩⟩

/-! ### The mirror and the bus lines (R114) -/

/-- Settles O32: the next state of either command, from any mirror, is the old one changed in RES, clock, phase and
trace by values that the mirror does not enter. -/
theorem lifecycleLeavesMirrorAndBus : Obligations.LifecycleLeavesMirrorAndBus := by
  rintro i s (rfl | rfl)
  · exact ⟨_, exec_resetchip s, rfl, rfl, rfl, rfl, rfl, fun m => exec_resetchip { s with mirror := m }⟩
  · exact ⟨_, exec_startclk s, rfl, rfl, rfl, rfl, rfl, fun m => exec_startclk { s with mirror := m }⟩

/-! ### The phase (R117): a command outside the lifecycle commutes with setting it -/

section Phase

variable (p : Phase) (s : State)

theorem commit_setPhase : commit (s.setPhase p) = mapNext (State.setPhase p) (commit s) := by
  rcases undriven_or_holds_pair s.lines with hundriven | ⟨a, d, ha, hd⟩
  · rw [commit_of_undriven s hundriven, commit_of_undriven (s.setPhase p) hundriven]
    rfl
  · rw [commit_of_driven a d s ha hd, commit_of_driven a d (s.setPhase p) ha hd]
    rfl

theorem withVoice_setPhase {v : VoiceField} {act act' : VoiceIx → State} (hact : ∀ k, act' k = (act k).setPhase p) :
    withVoice v (s.setPhase p) act' = mapNext (State.setPhase p) (withVoice v s act) := by
  rcases voiceField_cases v with rfl | ⟨k, rfl⟩
  · rfl
  · simp [hact]

theorem exec_setPhase {i : Instr} (hstart : i ≠ .startclk) (hreset : i ≠ .resetchip) :
    exec i (s.setPhase p) = mapNext (State.setPhase p) (exec i s) := by
  cases i with
  | busaddr _ | busdata _ | setvol _ => rfl
  | buscommit => exact commit_setPhase p s
  | resetchip => exact absurd rfl hreset
  | startclk => exact absurd rfl hstart
  | setfreq _ _ | updfreq _ | setpw _ _ | setenv _ _ _ _ _ | updenv _ | setshape _ _ | voiceon _ | voiceoff _
  | setsync _ _ | setring _ _ => exact withVoice_setPhase p s fun _ => rfl

variable {s} {i : Instr} {t : State}

theorem exec_setPhase_next (hstart : i ≠ .startclk) (hreset : i ≠ .resetchip) (h : exec i s = .next t) :
    exec i (s.setPhase p) = .next (t.setPhase p) := by
  rw [exec_setPhase p s hstart hreset, h, mapNext_next]

/-- The command leaves the phase it finds: set that phase first, which changes nothing, and it is the phase left. -/
theorem exec_phase (hstart : i ≠ .startclk) (hreset : i ≠ .resetchip) (h : exec i s = .next t) :
    t.phase = s.phase := by
  have hset : exec i s = .next (t.setPhase s.phase) := exec_setPhase_next s.phase hstart hreset h
  have hsame : t = t.setPhase s.phase := Host.Outcome.next.inj (h.symm.trans hset)
  rw [hsame, setPhase_phase]

theorem exec_keeps_ready (h : exec i s = .next t) (hready : s.phase = .ready) : t.phase = .ready := by
  cases exec_effect h with
  | address _ | data _ | cycle _ _ _ _ => exact hready
  | reset => simp [hready]
  | startClock => rfl
  | facade i m ps _ _ =>
    exact pushAll_keeps (P := fun u => u.phase = .ready) (fun _ _ _ h => h) ps (s := s.setMirror m) hready

end Phase

/-- Settles O33. -/
theorem lifecycleStateMachine : Obligations.LifecycleStateMachine :=
  ⟨⟨rfl, rfl⟩, fun s => ⟨_, exec_startclk s, rfl, rfl⟩, fun _ _ _ => exec_keeps_ready,
    fun _ _ _ p hstart hreset h => ⟨exec_phase hstart hreset h, exec_setPhase_next p hstart hreset h⟩⟩

end Sys2Proof.Machine

/-! SUPPORT. The voice commands for frequency, pulse width and envelope: the words they are decoded from, and what they
store and push in the spec's own expressions (R120, R122, R124, R126, R128). The address `7 * k.index + offset` of a
register of voice `k` is `regAddr` by definition (R29). -/

namespace Sys2Proof.Machine

/-! ### Bytes as the spec writes them -/

/-- R124: the PLO byte is `w & 0xFF`. -/
theorem lowByte_eq_setWidth (w : Half) : lowByte w = (w &&& 0xFF#16).setWidth 8 := by
  ext i hi
  interval_cases i <;> simp [lowByte]

/-- R124: the PHI byte is `(w >> 8) & 0x0F`. -/
theorem pulseHighByte_eq_setWidth (w : Half) : pulseHighByte w = ((w >>> 8) &&& 0x0F#16).setWidth 8 := by
  ext i hi
  interval_cases i <;> simp [pulseHighByte]

/-! ### Frequency (R120, R122) -/

/-- Settles O19: the must-be-zero field of format F-VH is 25:16. -/
theorem setfreqStoresTheFrequency : Obligations.SetfreqStoresTheFrequency := by
  refine ⟨fun w => decode_of_fields (.setfreq (voiceField w) (imm16Field w)) 0x6#4 16 10 rfl rfl,
    fun _ => exec_of_voiceOperand_three rfl, fun v k f s hv => ?_⟩
  obtain rfl := (toNat_eq_index v k).1 hv
  exact exec_setfreq k s f

/-- Settles O20: the must-be-zero field of format F-V is 25:0. -/
theorem updfreqPushesLowThenHigh : Obligations.UpdfreqPushesLowThenHigh := by
  refine ⟨fun w => decode_of_fields (.updfreq (voiceField w)) 0x7#4 0 26 rfl rfl,
    exec_of_voiceOperand_three rfl, fun v k s hv => ?_⟩
  rw [hv]
  obtain rfl := (toNat_eq_index v k).1 hv
  exact exec_updfreq k s

/-! ### Pulse width (R124) -/

/-- Settles O21: of the 16 bits stored, the two bytes pushed hold the lower 12. -/
theorem setpwStoresSixteenAndPushesTwelve : Obligations.SetpwStoresSixteenAndPushesTwelve := by
  refine ⟨fun w => decode_of_fields (.setpw (voiceField w) (imm16Field w)) 0x8#4 16 10 rfl rfl,
    fun _ => exec_of_voiceOperand_three rfl, fun w => ?_, fun v k w s hv => ?_⟩
  · rw [← pulseHighByte_eq_setWidth, pulseHighByte_high_zero]
  · rw [hv, ← pulseHighByte_eq_setWidth, ← lowByte_eq_setWidth]
    obtain rfl := (toNat_eq_index v k).1 hv
    exact exec_setpw k s w

/-! ### Envelope (R126, R128) -/

/-- Settles O22: packing puts the two nibbles of a byte side by side. -/
theorem setenvPacksTheNibbles : Obligations.SetenvPacksTheNibbles := by
  refine ⟨fun w => decode_of_fields
      (.setenv (voiceField w) (atkField w) (decField w) (susField w) (relField w)) 0x9#4 16 10 rfl rfl,
    fun _ _ _ _ => exec_of_voiceOperand_three rfl, fun v k atk dec sus rel s hv => ?_⟩
  rw [← packNibbles_eq, ← packNibbles_eq]
  obtain rfl := (toNat_eq_index v k).1 hv
  exact exec_setenv k s atk dec sus rel

/-- Settles O23: format F-V again, and the two envelope bytes as the mirror holds them. -/
theorem updenvPushesAdThenSr : Obligations.UpdenvPushesAdThenSr := by
  refine ⟨fun w => decode_of_fields (.updenv (voiceField w)) 0xA#4 0 26 rfl rfl,
    exec_of_voiceOperand_three rfl, fun v k s hv => ?_⟩
  rw [hv]
  obtain rfl := (toNat_eq_index v k).1 hv
  exact exec_updenv k s

end Sys2Proof.Machine

/-! SUPPORT. The voice commands for the control byte: the words they are decoded from, the byte each computes, and the one
store and push they share (R140, R142, R144, R146, R148, R152). -/

namespace Sys2Proof.Machine

/-! ### Words with a bit operand (R81) -/

/-- Format F-VG: the must-be-zero field is 25:1, and bit 0 tells VOICEON from VOICEOFF. -/
theorem decode_gate {w : Word} (hop : w.extractLsb' 28 4 = 0xC#4) (hzero : w.extractLsb' 1 25 = 0#25) :
    decode w = some (if w.extractLsb' 0 1 = 1#1 then .voiceon (voiceField w) else .voiceoff (voiceField w)) := by
  have hbits : w &&& 0x03FFFFFE#32 = 0#32 := (extractLsb'_eq_iff w (by decide)).1 hzero
  rw [decode_opC_format hop, if_pos hbits]

theorem enField_eq_beq (w : Word) : enField w = (w.extractLsb' 0 1 == 1#1) := by
  rw [← ofBool_enField]
  cases enField w <;> rfl

/-! ### Control bytes -/

/-- R140: SETSHAPE's byte keeps the low nibble. -/
theorem shapeByte_low (c m : Byte) : shapeByte c m &&& 0x0F#8 = c &&& 0x0F#8 := by
  ext i hi
  interval_cases i <;> simp [shapeByte]

theorem gateOff_bit0 (c : Byte) : (gateOff c).getLsbD 0 = false := by simp [gateOff]

/-- R152: with the bit clear the sum has no carry. -/
theorem add_shiftLeft_eq_or_of_clear {n k : Nat} {x : BitVec n} (h : x.getLsbD k = false) :
    x + (1#n <<< k) = x ||| (1#n <<< k) := by
  have hdisjoint : x &&& (1#n <<< k) = 0#n := by
    rw [← BitVec.twoPow_eq, BitVec.and_twoPow, h]
    rfl
  exact BitVec.add_eq_or_of_and_eq_zero _ _ hdisjoint

/-- Settles O30: the masks 0xFD and 0xFB clear the bits 1 and 2. -/
theorem addingAClearBitIsOr : Obligations.AddingAClearBitIsOr := by
  refine ⟨fun x k _ => add_shiftLeft_eq_or_of_clear, fun c => ⟨?_, ?_⟩⟩
  · have hclear : (c &&& 0xFD#8).getLsbD 1 = false := by simp
    exact (add_shiftLeft_eq_or_of_clear hclear).symm
  · have hclear : (c &&& 0xFB#8).getLsbD 2 = false := by simp
    exact (add_shiftLeft_eq_or_of_clear hclear).symm

/-! ### The store and the push (R130) -/

/-- `updateCtl_field` in the spec's expressions: the address is that of CTL by definition (R29). -/
theorem updateCtl_of_index {v : VoiceField} {k : VoiceIx} {new : Byte → Byte} {c : Byte} {s : State}
    (hv : v.toNat = k.index) (hc : c = new (s.mirror.voice k).ctl) :
    updateCtl v new s = .next (pushed (.ofNat 5 (7 * v.toNat + 4)) c
      { s with mirror := s.mirror.setVoice k { s.mirror.voice k with ctl := c } }) := by
  rw [hv, hc]
  obtain rfl := (toNat_eq_index v k).1 hv
  exact updateCtl_field k new s

/-- Settles O24: the must-be-zero field of format F-VB is 25:8. -/
theorem setshapeReplacesTheWaveformBits : Obligations.SetshapeReplacesTheWaveformBits := by
  refine ⟨fun w => decode_of_fields (.setshape (voiceField w) (imm8Field w)) 0xB#4 8 18 rfl rfl,
    fun _ => exec_of_voiceOperand_three rfl, fun v k m c s hv hc => ⟨?_, ?_⟩⟩
  · rw [hc]
    exact shapeByte_low _ m
  · exact updateCtl_of_index (new := (shapeByte · m)) hv hc

/-- Settles O25: format F-VG with bit 0 set. -/
theorem voiceonSetsTheGate : Obligations.VoiceonSetsTheGate := by
  refine ⟨fun w hop hzero hbit => ?_, exec_of_voiceOperand_three rfl,
    fun v k c s => updateCtl_of_index (new := gateOn)⟩
  rw [decode_gate hop hzero, if_pos hbit]
  rfl

/-- The gate is 0 after VOICEOFF, whatever it was. -/
theorem exec_voiceoff_gate (k : VoiceIx) (s : State) :
    ∃ t, exec (.voiceoff k.field) s = .next t ∧ (t.mirror.voice k).ctl.getLsbD 0 = false := by
  refine ⟨_, updateCtl_field k gateOff s, ?_⟩
  rw [pushed_mirror, setVoice_mirror, voice_setVoice_self]
  exact gateOff_bit0 _

/-- Settles O26: VOICEON completes, and VOICEOFF clears the gate in the state it leaves. -/
theorem voiceoffClearsTheGate : Obligations.VoiceoffClearsTheGate := by
  refine ⟨fun w hop hzero hbit => ?_, exec_of_voiceOperand_three rfl,
    fun v k c s => updateCtl_of_index (new := gateOff), fun v k s hv => ?_⟩
  · rw [decode_gate hop hzero, if_neg (by simp [hbit])]
    rfl
  · obtain rfl := (toNat_eq_index v k).1 hv
    obtain ⟨u, hon⟩ := exec_completes_of_isFacade (i := .voiceon k.field) rfl s
    obtain ⟨t, hoff, hgate⟩ := exec_voiceoff_gate k u
    exact ⟨t, by simp only [execAll, hon, hoff], hgate⟩

/-- Settles O27: the must-be-zero field of format F-VF is 25:1, and bit 0 is the enable operand. -/
theorem setsyncWritesTheSyncBit : Obligations.SetsyncWritesTheSyncBit := by
  refine ⟨fun w hop hzero => ?_, fun _ => exec_of_voiceOperand_three rfl,
    fun v k en c s => updateCtl_of_index (new := syncByte en)⟩
  rw [← enField_eq_beq]
  exact decode_of_fields (.setsync (voiceField w) (enField w)) 0xD#4 1 25 rfl rfl hop hzero

/-- Settles O28: the same format as SETSYNC's. -/
theorem setringWritesTheRingBit : Obligations.SetringWritesTheRingBit := by
  refine ⟨fun w hop hzero => ?_, fun _ => exec_of_voiceOperand_three rfl,
    fun v k en c s => updateCtl_of_index (new := ringByte en)⟩
  rw [← enField_eq_beq]
  exact decode_of_fields (.setring (voiceField w) (enField w)) 0xE#4 1 25 rfl rfl hop hzero

end Sys2Proof.Machine

/-! SUPPORT. The volume command: the words it is decoded from, and the byte it stores and pushes (R160). -/

namespace Sys2Proof.Machine

/-- Settles O29: the must-be-zero field of format F-B is 27:8, and the byte `c` is `volumeByte` by definition. -/
theorem setvolReplacesTheVolumeNibble : Obligations.SetvolReplacesTheVolumeNibble := by
  refine ⟨fun w => decode_of_fields (.setvol (imm8Field w)) 0xF#4 8 20 rfl rfl, fun x c s hc => ?_⟩
  rw [hc]
  exact exec_setvol s x

end Sys2Proof.Machine

/-! SUPPORT. The chip and the mirror right after the first STARTCLK (R257). -/

namespace Sys2Proof.Machine

/-- Settles O50: the pulse leaves the chip in its post-reset image, and the mirror is still the zero one of block reset. -/
theorem bootConsistencyNeedsAZeroResetImage : Obligations.BootConsistencyNeedsAZeroResetImage := by
  obtain ⟨t, hexec, hmirror, -, -, hchip⟩ := startclk_reset
  refine ⟨t, hexec, fun img a ha => ?_⟩
  have himage : image t.mirror a = some 0#8 := hmirror ▸ image_zero a ha
  refine ⟨himage, ?_⟩
  rw [hchip, himage, Option.some_inj]

end Sys2Proof.Machine

/-! SUPPORT. What a sequence of commands keeps of a voice: a field without its writers, and a range of control bits without
the commands of that range (R25, and the bit-range invariant after R148). -/

namespace Sys2Proof.Machine

section Sequences

variable {is : List Instr} {s t : State} {k : VoiceIx}

/-- What no command of a sequence stores differently, the sequence leaves as it was. -/
theorem execAll_keeps_voice_field {α : Type} (p : Voice → α)
    (hfield : ∀ i ∈ is, ∀ m, p ((storedMirror i m).voice k) = p (m.voice k)) (h : execAll is s = .next t) :
    p (t.mirror.voice k) = p (s.mirror.voice k) := by
  refine execAll_keeps (P := fun u => p (u.mirror.voice k) = p (s.mirror.voice k)) (fun i hi u u' hu hexec => ?_) rfl h
  rw [exec_mirror hexec, hfield i hi, hu]

/-! ### Control-bit ranges: a range is a mask, and each command keeps the bits of one -/

theorem and_eq_of_within {x y kept mask : Byte} (h : x &&& kept = y &&& kept) (hmask : kept &&& mask = mask) :
    x &&& mask = y &&& mask := by
  rw [← hmask, ← BitVec.and_assoc, h, BitVec.and_assoc]

theorem getLsbD_eq_of_and_eq {x y mask : Byte} {j : Nat} (hj : mask.getLsbD j = true) (h : x &&& mask = y &&& mask) :
    x.getLsbD j = y.getLsbD j := by
  simpa [hj] using congrArg (·.getLsbD j) h

theorem gateOn_kept (c : Byte) : gateOn c &&& 0xFE#8 = c &&& 0xFE#8 := by
  rw [gateOn, BitVec.and_or_distrib_right]
  exact BitVec.or_zero

theorem gateOff_kept (c : Byte) : gateOff c &&& 0xFE#8 = c &&& 0xFE#8 := by rw [gateOff, BitVec.and_assoc]; rfl

theorem syncByte_kept (en : Bool) (c : Byte) : syncByte en c &&& 0xFD#8 = c &&& 0xFD#8 := by
  ext i hi
  cases en <;> interval_cases i <;> simp [syncByte]

theorem ringByte_kept (en : Bool) (c : Byte) : ringByte en c &&& 0xFB#8 = c &&& 0xFB#8 := by
  ext i hi
  cases en <;> interval_cases i <;> simp [ringByte]

/-- The command that changed a range of a voice's control bits names that voice and does not keep the whole range. -/
theorem ctl_range_writer {i : Instr} {m : Mirror} {mask : Byte}
    (h : ((storedMirror i m).voice k).ctl &&& mask ≠ (m.voice k).ctl &&& mask) :
    (∃ b, i = .setshape k.field b ∧ 0x0F#8 &&& mask ≠ mask) ∨
    ((i = .voiceon k.field ∨ i = .voiceoff k.field) ∧ 0xFE#8 &&& mask ≠ mask) ∨
    (∃ en, i = .setsync k.field en ∧ 0xFD#8 &&& mask ≠ mask) ∨
    ∃ en, i = .setring k.field en ∧ 0xFB#8 &&& mask ≠ mask := by
  obtain ⟨v, hv, hi⟩ := ctl_writer (mt (congrArg (· &&& mask)) h)
  obtain rfl := (toNat_eq_index v k).1 hv
  rcases hi with ⟨b, rfl⟩ | rfl | rfl | ⟨en, rfl⟩ | ⟨en, rfl⟩ <;>
    have hne := (field_updateVoice_ne (p := (·.ctl &&& mask)) h).2
  · exact .inl ⟨b, rfl, mt (and_eq_of_within (shapeByte_low _ b)) hne⟩
  · exact .inr (.inl ⟨.inl rfl, mt (and_eq_of_within (gateOn_kept _)) hne⟩)
  · exact .inr (.inl ⟨.inr rfl, mt (and_eq_of_within (gateOff_kept _)) hne⟩)
  · exact .inr (.inr (.inl ⟨en, rfl, mt (and_eq_of_within (syncByte_kept en _)) hne⟩))
  · exact .inr (.inr (.inr ⟨en, rfl, mt (and_eq_of_within (ringByte_kept en _)) hne⟩))

/-- A range of control bits is as before once every command that reaches into it is absent for that voice. -/
theorem execAll_keeps_ctl_range (mask : Byte)
    (hshape : 0x0F#8 &&& mask ≠ mask → ∀ b, .setshape k.field b ∉ is)
    (hgate : 0xFE#8 &&& mask ≠ mask → .voiceon k.field ∉ is ∧ .voiceoff k.field ∉ is)
    (hsync : 0xFD#8 &&& mask ≠ mask → ∀ en, .setsync k.field en ∉ is)
    (hring : 0xFB#8 &&& mask ≠ mask → ∀ en, .setring k.field en ∉ is) (h : execAll is s = .next t) :
    (t.mirror.voice k).ctl &&& mask = (s.mirror.voice k).ctl &&& mask := by
  refine execAll_keeps_voice_field (·.ctl &&& mask) (fun i hi m => ?_) h
  by_contra hne
  rcases ctl_range_writer hne with ⟨b, rfl, hm⟩ | ⟨rfl | rfl, hm⟩ | ⟨en, rfl, hm⟩ | ⟨en, rfl, hm⟩
  · exact hshape hm b hi
  · exact (hgate hm).1 hi
  · exact (hgate hm).2 hi
  · exact hsync hm en hi
  · exact hring hm en hi

end Sequences

/-- Settles O36: each range is the mask of its bits, and the commands that keep those bits are free to occur. -/
theorem sequencesKeepControlBitRanges : Obligations.SequencesKeepControlBitRanges := by
  intro is s t v k hv h
  obtain rfl := (toNat_eq_index v k).1 hv
  refine ⟨fun hshape => ?_, fun hon hoff => ?_, fun hsync => ?_, fun hring => ?_, ?_⟩
  · exact execAll_keeps_ctl_range 0xF0#8 (fun _ => hshape) (absurd rfl) (absurd rfl) (absurd rfl) h
  · exact getLsbD_eq_of_and_eq rfl
      (execAll_keeps_ctl_range 0x01#8 (absurd rfl) (fun _ => ⟨hon, hoff⟩) (absurd rfl) (absurd rfl) h)
  · exact getLsbD_eq_of_and_eq rfl
      (execAll_keeps_ctl_range 0x02#8 (absurd rfl) (absurd rfl) (fun _ => hsync) (absurd rfl) h)
  · exact getLsbD_eq_of_and_eq rfl
      (execAll_keeps_ctl_range 0x04#8 (absurd rfl) (absurd rfl) (absurd rfl) (fun _ => hring) h)
  · exact getLsbD_eq_of_and_eq rfl
      (execAll_keeps_ctl_range 0x08#8 (absurd rfl) (absurd rfl) (absurd rfl) (absurd rfl) h)

/-- Settles O38: the always-zero bits are the first of the four invariants. -/
theorem stepKeepsAlwaysZeroBits : Obligations.StepKeepsAlwaysZeroBits := fun _ _ => alwaysZeroBits_step

/-! ### The pending window (R120, R122, R126, R128) -/

/-- A field that SETFREQ or SETENV stores and no later command of the sequence stores is pending at its end. -/
theorem pending_field {α : Type} (p : Voice → α) {i : Instr} {is : List Instr} {s t : State} {k : VoiceIx}
    (hfield : ∀ j ∈ is, ∀ m, p ((storedMirror j m).voice k) = p (m.voice k)) (h : execAll (i :: is) s = .next t) :
    p (t.mirror.voice k) = p ((storedMirror i s.mirror).voice k) := by
  obtain ⟨u, hi, his⟩ := execAll_cons h
  rw [execAll_keeps_voice_field p hfield his, exec_mirror hi]

/-- Settles O54: the field stays pending through the commands between, and the push reads it from the mirror. -/
theorem pendingValuesArePushedLater : Obligations.PendingValuesArePushedLater := by
  refine ⟨fun v k f is s t hv hnone h => ?_, fun v k atk dec sus rel is s t hv hnone h => ?_⟩ <;>
    obtain rfl := (toNat_eq_index v k).1 hv
  · have hfreq : (t.mirror.voice k).freq = f := by
      rw [pending_field Voice.freq (fun j hj m => ?_) h]
      · simp [storedMirror]
      · by_contra hne
        obtain ⟨w, g, rfl, hw⟩ := freq_writer hne
        obtain rfl := (toNat_eq_index w k).1 hw
        exact hnone g hj
    rw [exec_updfreq, hfreq, field_toNat]
    rfl
  · have henv : (t.mirror.voice k).envelope = (atk ++ dec, sus ++ rel) := by
      rw [pending_field Voice.envelope (fun j hj m => ?_) h]
      · simp [storedMirror, Voice.envelope, packNibbles_eq]
      · by_contra hne
        obtain ⟨w, a, d, u, r, rfl, hw⟩ := envelope_writer hne
        obtain rfl := (toNat_eq_index w k).1 hw
        exact hnone a d u r hj
    obtain ⟨had, hsr⟩ := Prod.mk.inj henv
    rw [exec_updenv, had, hsr, field_toNat]
    rfl

end Sys2Proof.Machine

/-! SUPPORT. The write cycles of a command one by one: how long they wait, what stands between the two of a double push, and
what BUSCOMMIT makes of the pair a push left on the lines (70_reset_and_hazards.md sections 3 and 4). -/

namespace Sys2Proof.Machine

/-! ### Durations -/

theorem waitCycles_pushAll (ps : List (Addr × Byte)) (s : State) :
    waitCycles (pushAll ps s).trace = waitCycles s.trace + 2 * ps.length := by
  induction ps generalizing s with
  | nil => rfl
  | cons p ps ih =>
    calc waitCycles (pushAll ps (pushed p.1 p.2 s)).trace
      _ = waitCycles (pushed p.1 p.2 s).trace + 2 * ps.length := ih _
      _ = waitCycles s.trace + 2 * (p :: ps).length := by
        rw [pushed_trace, waitCycles_append, waitCycles_writeEvents, List.length_cons]
        omega

/-- The duration table charges a façade command two bus cycles for each of its store addresses. -/
theorem minCycles_of_isFacade {i : Instr} (hi : isFacade i = true) (s : State) :
    minCycles i = 2 * (storeAddrs i s).length := by
  cases i with
  | busaddr _ | busdata _ | buscommit | resetchip | startclk => simp [isFacade] at hi
  | setvol _ => rfl
  | setfreq v _ | setenv v _ _ _ _ | updfreq v | setpw v _ | updenv v | setshape v _ | voiceon v | voiceoff v
  | setsync v _ | setring v _ =>
    rcases voiceField_cases v with rfl | ⟨k, rfl⟩
    · rfl
    · cases k <;> rfl

/-- Settles O37, by the effect of the command. -/
theorem commandsWaitTheirBusCycles : Obligations.CommandsWaitTheirBusCycles := by
  intro i s t h
  cases exec_effect h with
  | address _ | data _ | cycle _ _ _ _ | reset | startClock => exact waitCycles_append _ _
  | facade i m ps hi haddrs =>
    have hlength : ps.length = (storeAddrs i s).length := by rw [← haddrs, List.length_map]
    rw [waitCycles_pushAll, minCycles_of_isFacade hi s, hlength]
    rfl

/-! ### Torn pushes -/

/-- The register map names the register at the address of a voice's register (R29, R30). -/
theorem register_regAddr (k : VoiceIx) (r : VoiceReg) : register (regAddr k r) = some (.voice k r) := by
  cases k <;> cases r <;> rfl

theorem regAddr_injective (k : VoiceIx) : Function.Injective (regAddr k) := by
  intro r q h
  have hregister : some (Register.voice k r) = some (.voice k q) := by rw [← register_regAddr, h, register_regAddr]
  cases hregister
  rfl

theorem voiceAddrs_nodup (v : VoiceField) {rs : List VoiceReg} (hrs : rs.Nodup) : (voiceAddrs v rs).Nodup := by
  rcases voiceField_cases v with rfl | ⟨k, rfl⟩
  · exact List.nodup_nil
  · simpa [voiceAddrs] using hrs.map (regAddr_injective k)

/-- No command writes one address twice. -/
theorem storeAddrs_nodup (i : Instr) (s : State) : (storeAddrs i s).Nodup := by
  cases i with
  | busaddr _ | busdata _ | resetchip | startclk | setfreq _ _ | setenv _ _ _ _ _ => exact List.nodup_nil
  | buscommit => cases h : s.lines.a <;> simp [storeAddrs, h]
  | updfreq v | setpw v _ | updenv v | setshape v _ | voiceon v | voiceoff v | setsync v _ | setring v _ =>
    exact voiceAddrs_nodup v (by decide)
  | setvol _ => exact List.nodup_singleton _

/-- A command with two store addresses is two pushes in a row to two registers. -/
theorem exec_of_two_storeAddrs {i : Instr} {s t : State} {a b : Addr} (h : exec i s = .next t)
    (haddrs : storeAddrs i s = [a, b]) :
    a ≠ b ∧ ∃ (m : Mirror) (x y : Byte), t = pushed b y (pushed a x (s.setMirror m)) := by
  refine ⟨by simpa [haddrs] using storeAddrs_nodup i s, ?_⟩
  cases exec_effect h with
  | address _ | data _ | reset | startClock => simp [storeAddrs] at haddrs
  | cycle c _ hc _ => simp [storeAddrs, hc] at haddrs
  | facade i m ps _ hps =>
    obtain ⟨⟨_, x⟩, qs, rfl, rfl, hqs⟩ := List.map_eq_cons_iff.1 (hps.trans haddrs)
    obtain ⟨⟨_, y⟩, rs, rfl, rfl, hrs⟩ := List.map_eq_cons_iff.1 hqs
    obtain rfl := List.map_eq_nil_iff.1 hrs
    exact ⟨m, x, y, rfl⟩

/-- Settles O53: the trace is cut between the two pushes. -/
theorem twoCyclePushesTear : Obligations.TwoCyclePushesTear := by
  intro img i s t a b h haddrs
  obtain ⟨hab, m, x, y, rfl⟩ := exec_of_two_storeAddrs h haddrs
  refine ⟨(pushed a x (s.setMirror m)).trace, writeEvents b y, rfl, rfl, ?_, ?_⟩
  · exact ((chipView_pushed img _ b y a).trans (if_neg hab.symm)).symm
  · exact (chipView_pushed img (s.setMirror m) a x b).trans (if_neg hab)

/-! ### Held lines -/

/-- After a push BUSCOMMIT finds the pair of the push on the lines. -/
theorem exec_buscommit_pushed (a : Addr) (d : Byte) (s : State) :
    exec .buscommit (pushed a d s) =
      .next { pushed a d s with trace := s.trace ++ writeEvents a d ++ cycleEvents a d } := by
  rw [exec_buscommit, commit_of_driven a d _ rfl rfl, strobe_eq]
  rfl

theorem execAll_pair_of_execs {i j : Instr} {s u t : State} (hi : exec i s = .next u) (hj : exec j u = .next t) :
    execAll [i, j] s = .next t := by
  simp only [execAll, hi, hj]

/-- Settles O56: VOICEON's push comes after the raw pair was driven, so it is the push that BUSCOMMIT finds. -/
theorem heldLinesAreRelatched : Obligations.HeldLinesAreRelatched := by
  refine ⟨exec_buscommit_pushed, fun a d v k s c hv hc => ?_⟩
  have hraw : execAll [.busaddr a, .busdata d] s = .next (driveD d (driveA a s)) := rfl
  obtain ⟨u, hon, htrace⟩ : ∃ u, exec (.voiceon v) (driveD d (driveA a s)) =
      .next (pushed (.ofNat 5 (7 * v.toNat + 4)) c u) ∧ u.trace = (driveD d (driveA a s)).trace :=
    ⟨_, updateCtl_of_index (new := gateOn) hv hc, rfl⟩
  have hdrives : latches u.trace = latches s.trace := by
    rw [htrace, driveD_eq, driveA_eq]
    simp [latches, Event.latched?]
  refine ⟨_, (execAll_append hraw).trans (execAll_pair_of_execs hon (exec_buscommit_pushed _ _ u)), ?_⟩
  simp [hdrives]

end Sys2Proof.Machine

/-! SUPPORT. The command port with nothing presented (R49, R50, log 2), and the example words of the encoding chapter (R92). -/

namespace Sys2Proof.Machine

theorem step_of_no_word {s : State} (hs : Unmarked s) (hp : s.port = []) : step s = .next s := by
  simp [step, (stopped_eq_none s).2 hs, takeWord_nil s hp]

/-- Settles O8. -/
theorem blockWaitsForAWord : Obligations.BlockWaitsForAWord := fun _ => step_of_no_word

/-- Settles O5: ten words, each decoded by the opcode map. -/
theorem encodingExamplesDecode : Obligations.EncodingExamplesDecode := by
  refine ⟨?_, ?_, ?_, ?_, ?_, ?_, ?_, ?_, ?_, ?_⟩ <;> decide

end Sys2Proof.Machine
